-- ==== Sys2Proof/Word.lean ====
section
/-! DEFINITION. The word types of the core: bytes (R8) and the 16-bit checksum width (R6 CHECKSUM_BITS). -/

namespace Sys2Proof

/-- A byte: 8 bits, always read as an unsigned value 0..255 (R8, R92). -/
abbrev Byte := BitVec 8

/-- A 16-bit value: the accumulator, ACC and CHK_RX (R6, R10). -/
abbrev Word16 := BitVec 16

end Sys2Proof
end

