-- ==== Sys2Proof/Syntax.lean ====
section
/-! DEFINITION. The operations of the core: one constructor per row of spec/opcode_table.json, and the ports a host
can read. -/

namespace Sys2Proof

/-- What HOST.READ can read: any register or FB byte (R128 h4), each by its name (R40: the registers are named
ports, without addresses). -/
inductive Port where
  | fb (a : Nat)
  | len
  | busy
  | done
  | verifyOk
  | acc
  | chkRx
  | parseSt
  | badStart
  | badEnd
  | command
  | pktStatus
  | dlen
  | data (j : Nat)
deriving DecidableEq, Repr

/-- The rows of spec/opcode_table.json. The core has no opcodes (R66); RUN, VERIFY, PARSE and their internal steps
take no operand but FB and LEN. -/
inductive Instr where
  /-- RUN (R120): START accepted, then completion. -/
  | run
  /-- VERIFY (R80). -/
  | verify
  /-- PARSE (R100). -/
  | parse
  /-- REQ_HWINFO (R68): the literal frame DD A5 05 00 FF FB 77. -/
  | reqHwinfo
  /-- VERIFY.GUARD (R81). -/
  | verifyGuard
  /-- VERIFY.BODY (R82). -/
  | verifyBody
  /-- VERIFY.ACCUMULATE (R84). -/
  | verifyAccumulate
  /-- VERIFY.ENCODE (R85). -/
  | verifyEncode
  /-- VERIFY.FETCH (R86). -/
  | verifyFetch
  /-- VERIFY.COMPARE (R87). -/
  | verifyCompare
  /-- PARSE.LENCHECK (R101). -/
  | parseLencheck
  /-- PARSE.MARKERS (R102). -/
  | parseMarkers
  /-- PARSE.MARKER_ID (R103). -/
  | parseMarkerId
  /-- PARSE.HEADER (R104). -/
  | parseHeader
  /-- PARSE.DLENCHECK (R105). -/
  | parseDlencheck
  /-- PARSE.DATA (R106). -/
  | parseData
  /-- COMPLETE (R122), the core's move c1. -/
  | complete
  /-- HOST.WRITE_FB (R128 h1): FB[a] <- v. -/
  | hostWriteFb (a : Nat) (v : Byte)
  /-- HOST.WRITE_LEN (R128 h2): LEN <- n. -/
  | hostWriteLen (n : Nat)
  /-- HOST.START (R128 h3, R121, R125). -/
  | hostStart
  /-- HOST.READ (R128 h4, R127). -/
  | hostRead (p : Port)
  /-- HOST.RESET (R128 h5, R160). -/
  | hostReset
  /-- CHK (R70): the value (65536 - sum(body)) mod 65536. -/
  | chk (body : List Byte)
  /-- FRAME (R70): the frame built from these fields. -/
  | frame (cmd status : Byte) (data slack : List Byte)
deriving DecidableEq, Repr

end Sys2Proof
end

