-- ==== Sys2Proof/Decode.lean ====
section
/-! DEFINITION. The functional level (R5) and the decoder. What this core decodes is the frame: the constants (R6),
the checksum (R83), `verify(frame)` (R80), `parse(frame)` (R100), the frame's fields both ways (R60 to R64, R70), the
rows a frame selects, and the host's `decodeTableWord`. -/

namespace Sys2Proof

/-! Constants of R6. -/

/-- START_MARKER. -/
def startMarker : Byte := 0xDD
/-- END_MARKER. -/
def endMarker : Byte := 0x77
/-- MIN_VERIFY_LEN. -/
def minVerifyLen : Nat := 6
/-- MIN_PARSE_LEN. -/
def minParseLen : Nat := 7
/-- BODY_FIRST. -/
def bodyFirst : Nat := 2
/-- TRAILER_LEN. -/
def trailerLen : Nat := 3
/-- CHECKSUM_BASE. -/
def checksumBase : Nat := 65536
/-- OFF_START. -/
def offStart : Nat := 0
/-- OFF_COMMAND. -/
def offCommand : Nat := 1
/-- OFF_STATUS. -/
def offStatus : Nat := 2
/-- OFF_DLEN. -/
def offDlen : Nat := 3
/-- OFF_DATA. -/
def offData : Nat := 4
/-- FRAME_OVERHEAD. -/
def frameOverhead : Nat := 7

/-! Byte order (R44, R63, R85). -/

/-- `v[15:8]`, the first byte of an encoded 16-bit value (R8, R85). -/
def hiByte (v : Word16) : Byte := v.extractLsb' 8 8
/-- `v[7:0]`, the second byte (R8, R85). -/
def loByte (v : Word16) : Byte := v.extractLsb' 0 8
/-- `{hi, lo}`: the byte at the lower offset is the most significant (R44). -/
def beWord (hi lo : Byte) : Word16 := hi ++ lo

/-- `F[k]` for an offset inside the frame; every use is guarded by a length check, so the default is never the
result's (R43). -/
def byteAt (f : List Byte) (k : Nat) : Byte := f.getD k 0

/-! The checksum (R70 CHK, R82, R83, R92). -/

/-- `sum(S)`: unbounded, over unsigned bytes (R9, R92). -/
def sumBytes (body : List Byte) : Nat := (body.map BitVec.toNat).sum

/-- `CHK(body) = (65536 - sum(body)) mod 65536`: the wide integer, which may be negative, cut to 16 bits (R83, R70). -/
def chkOf (body : List Byte) : Word16 := BitVec.ofInt 16 ((checksumBase : Int) - (sumBytes body : Int))

/-- The body: offsets `2..LEN-4`, `LEN - 5` bytes (R65, R82). -/
def bodyOf (f : List Byte) : List Byte := (f.drop bodyFirst).take (f.length - bodyFirst - trailerLen)

/-- The value of ACC: the computed checksum, 0x0000 for a frame below 6 bytes (R15, R81). -/
def computedChecksum (f : List Byte) : Word16 := if f.length < minVerifyLen then 0 else chkOf (bodyOf f)

/-- The value of CHK_RX: `{F[LEN-3], F[LEN-2]}`, 0x0000 for a frame below 6 bytes (R16, R86). -/
def receivedChecksum (f : List Byte) : Word16 :=
  if f.length < minVerifyLen then 0 else beWord (byteAt f (f.length - 3)) (byteAt f (f.length - 2))

/-- `verify(frame) -> bool` (R80, R81, R87): fails closed below 6 bytes, else compares byte for byte. -/
def verifyFrame (f : List Byte) : Bool :=
  if f.length < minVerifyLen then false
  else hiByte (chkOf (bodyOf f)) == byteAt f (f.length - 3) && loByte (chkOf (bodyOf f)) == byteAt f (f.length - 2)

/-! The parser (R100 to R109). -/

/-- The source's ParsedPacket (R27, R107). -/
structure Packet where
  command    : Byte
  status     : Byte
  dataLength : Byte
  data       : List Byte
deriving DecidableEq, Repr

/-- The source's FramingError with what each variant records (R140, R142): BadMarker says which markers failed. -/
inductive FramingError where
  | tooShort
  | badMarker (start stop : Bool)
  | truncatedData
deriving DecidableEq, Repr

/-- `parse(frame) -> ParsedPacket` or a FramingError: the checks in the order TooShort, BadMarker, TruncatedData
(R109), the header at fixed offsets (R104), the data at `4..4+N-1` (R106). -/
def parseFrame (f : List Byte) : Except FramingError Packet :=
  if f.length < minParseLen then .error .tooShort
  else
    let badStart := byteAt f offStart != startMarker
    let badEnd := byteAt f (f.length - 1) != endMarker
    if badStart || badEnd then .error (.badMarker badStart badEnd)
    else
      let n := byteAt f offDlen
      if f.length < n.toNat + frameOverhead then .error .truncatedData
      else .ok ⟨byteAt f offCommand, byteAt f offStatus, n, (f.drop offData).take n.toNat⟩

/-! The bit-level view (R61) and the length classes (R64). -/

/-- `HDR = {F[0], F[1], F[2], F[3]}` (R61). -/
def hdrWord (f : List Byte) : BitVec 32 := byteAt f 0 ++ byteAt f 1 ++ byteAt f 2 ++ byteAt f 3

/-- `TRL = {F[LEN-3], F[LEN-2], F[LEN-1]}` (R61). -/
def trlWord (f : List Byte) : BitVec 24 :=
  byteAt f (f.length - 3) ++ byteAt f (f.length - 2) ++ byteAt f (f.length - 1)

/-- The marker detector's pattern: `(HDR & 0xFF000000) == 0xDD000000` and `(TRL & 0x0000FF) == 0x000077` (R61), the
match and mask of the table's PARSE row. -/
def matchesPattern (f : List Byte) : Bool :=
  hdrWord f &&& 0xFF000000 == 0xDD000000 && trlWord f &&& 0x0000FF == 0x000077

/-- The length classes of a frame of at least 7 bytes (R64). -/
inductive LengthClass where
  | canonical
  | slack
  | truncated
deriving DecidableEq, Repr

/-- The class by `LEN` against `N + 7`, on unbounded integers (R64, R113). -/
def lengthClass (f : List Byte) : LengthClass :=
  if f.length = (byteAt f offDlen).toNat + frameOverhead then .canonical
  else if (byteAt f offDlen).toNat + frameOverhead < f.length then .slack
  else .truncated

/-! The frame's fields, both ways (R47, R60, R63). -/

/-- The fields of an accepted frame (R47): header, data, slack and the received checksum. -/
structure FrameFields where
  command  : Byte
  status   : Byte
  data     : List Byte
  slack    : List Byte
  checksum : Word16
deriving DecidableEq, Repr

/-- The length byte can hold the number of data bytes (R62). -/
abbrev FrameFields.Wf (x : FrameFields) : Prop := x.data.length ≤ 255

/-- Split a frame into its fields, or name why it is no frame; total on any bytes. -/
def decodeFrame (f : List Byte) : Except FramingError FrameFields :=
  match parseFrame f with
  | .error e => .error e
  | .ok p =>
    .ok ⟨p.command, p.status, p.data,
      (f.drop (offData + p.dataLength.toNat)).take (f.length - frameOverhead - p.dataLength.toNat),
      receivedChecksum f⟩

/-- The bytes of a frame: start marker, command, status, |data|, data, slack, checksum big-endian, end marker (R60,
R63, R70). -/
def encodeFrame (x : FrameFields) : List Byte :=
  [startMarker, x.command, x.status, BitVec.ofNat 8 x.data.length] ++ x.data ++ x.slack
    ++ [hiByte x.checksum, loByte x.checksum, endMarker]

/-- `FRAME(cmd, status, data, slack)`: the checksum is `CHK([status, |data|] ++ data ++ slack)` (R70). -/
def frameBytes (cmd status : Byte) (data slack : List Byte) : List Byte :=
  encodeFrame ⟨cmd, status, data, slack, chkOf ([status, BitVec.ofNat 8 data.length] ++ data ++ slack)⟩

/-- The literal request frame (R68). -/
def reqHwinfoBytes : List Byte := [0xDD, 0xA5, 0x05, 0x00, 0xFF, 0xFB, 0x77]

/-! Rows and bytes. -/

/-- The row of the table a frame selects: REQ_HWINFO fixes all its 56 bits (R68); any other frame that meets PARSE's
pattern and length conditions is PARSE's (R61, R66). Bytes that no row with an encoding takes are rejected by the
framing error's name. -/
def decode (bytes : List Byte) : Except FramingError Instr :=
  if bytes = reqHwinfoBytes then .ok .reqHwinfo
  else
    match parseFrame bytes with
    | .ok _ => .ok .parse
    | .error e => .error e

/-- The bytes of the rows that are given as bytes: the literal frame (R68) and the pseudo-operation FRAME's expansion
(R70). Host moves, CHK and the operations, whose operands are FB and LEN, have no bytes of their own (R66). -/
def encode : Instr → Option (List Byte)
  | .reqHwinfo => some reqHwinfoBytes
  | .frame cmd status data slack => some (frameBytes cmd status data slack)
  | .run | .verify | .parse | .verifyGuard | .verifyBody | .verifyAccumulate | .verifyEncode | .verifyFetch
  | .verifyCompare | .parseLencheck | .parseMarkers | .parseMarkerId | .parseHeader | .parseDlencheck | .parseData
  | .complete | .hostWriteFb _ _ | .hostWriteLen _ | .hostStart | .hostRead _ | .hostReset | .chk _ => none

/-- The row a frame in the buffer stands for: the decoder's, and PARSE, which records the error by name (R142), for
bytes the decoder rejects (log 6). -/
def rowOf (bytes : List Byte) : Instr :=
  match decode bytes with
  | .ok i => i
  | .error _ => .parse

/-- A table word as bytes: the table writes a whole row as one number with offset 0 in the highest byte (R61, the
REQ_HWINFO row), so the word is laid out most significant byte first (log 6). -/
def tableBytes : Nat → Nat → List Byte
  | 0, _ => []
  | k + 1, w => BitVec.ofNat 8 (w / 256 ^ k) :: tableBytes k w

/-- The instruction the decoder reads from a row's bits as the table numbers them. -/
def decodeTableWord (nbits w : Nat) : Option Instr :=
  match decode (tableBytes (nbits / 8) w) with
  | .ok i => some i
  | .error _ => none

end Sys2Proof
end

