-- ==== Sys2Proof/Config.lean ====
section
/-! DEFINITION. What an implementation fixes (LEN_W, R7) and the free values of the model. -/

namespace Sys2Proof

/-- The one implementation parameter of the hardware level: LEN_W, the width of LEN (R7). It is OPEN in the spec;
State carries it as a field that no step changes (log 1). -/
structure Config where
  lenW : Nat
deriving DecidableEq, Repr

/-- `FB_SIZE = 2^LEN_W - 1` (R7, R11). -/
def Config.fbSize (c : Config) : Nat := 2 ^ c.lenW - 1

/-- The constraint R7 puts on the parameter: `LEN_W >= 9`. -/
abbrev Config.Wf (c : Config) : Prop := 9 ≤ c.lenW

/-- The spec's reference value `LEN_W = 9` (R7), which State.reset carries. DESIGN CHOICE, log 1. -/
def Config.reference : Config := ⟨9⟩

/-! Free values: no body, so nothing can be proved of them. -/

/-- The content at power-up of the byte at an offset of FB: unspecified (R11, R28, U4). Log 2. -/
opaque Config.unwrittenByte : Nat → Byte

/-- Results of an operation during which FB or LEN was written: any value of their width (R163). The argument is
the number of result sets drawn before, State.draws. Log 3. -/
opaque Config.freeVerifyOk : Nat → Bool
/-- Free ACC after a hazard (R163, log 3). -/
opaque Config.freeAcc : Nat → Word16
/-- Free CHK_RX after a hazard (R163, log 3). -/
opaque Config.freeChkRx : Nat → Word16
/-- Free PARSE_ST after a hazard, a reserved code included (R163, log 3). -/
opaque Config.freeParseSt : Nat → BitVec 3
/-- Free BAD_START after a hazard (R163, log 3). -/
opaque Config.freeBadStart : Nat → Bool
/-- Free BAD_END after a hazard (R163, log 3). -/
opaque Config.freeBadEnd : Nat → Bool
/-- Free COMMAND after a hazard (R163, log 3). -/
opaque Config.freeCommand : Nat → Byte
/-- Free PKT_STATUS after a hazard (R163, log 3). -/
opaque Config.freePktStatus : Nat → Byte
/-- Free DLEN after a hazard (R163, log 3). -/
opaque Config.freeDlen : Nat → Byte

end Sys2Proof
end

