-- ==== Sys2Proof/Machine/State.lean ====
section
/-! DEFINITION. The state of the core (R10 to R28) as plain data, the reasons to stop, and the state after reset. -/

namespace Sys2Proof.Machine

/-- FB's written bytes: (offset, byte) pairs, offsets strictly rising, each offset at most once. An offset that is not
listed has no value of its own (R11: "no value rather than zero"); what the core reads there is a free value, Ops.fbRead. -/
abbrev Memory := List Host.Cell

/-- The canonical form of a memory: offsets strictly rising. -/
def Memory.wf : Memory → Bool
  | [] => true
  | [_] => true
  | (a, _) :: (b, w) :: m => decide (a < b) && Memory.wf ((b, w) :: m)

/-- The registers VERIFY writes (R14 to R16). -/
structure VerifyRegs where
  verifyOk : Bool
  acc      : Word16
  chkRx    : Word16
deriving DecidableEq, Repr

/-- Their value after reset and from an accepted START (R28, R121). -/
def VerifyRegs.zero : VerifyRegs := ⟨false, 0, 0⟩

/-- The registers PARSE writes (R17 to R21). -/
structure ParseRegs where
  parseSt   : BitVec 3
  badStart  : Bool
  badEnd    : Bool
  command   : Byte
  pktStatus : Byte
  dlen      : Byte
deriving DecidableEq, Repr

/-- Their value after reset and from an accepted START: PARSE_ST NONE, the rest zero (R28, R121). -/
def ParseRegs.zero : ParseRegs := ⟨0, false, false, 0, 0, 0⟩

/-- The working registers of an operation: the accumulator and byte index of R23, the encoded checksum bytes of R85 and
the header latches of R104. Not readable by the host; the atomic operations do not use them (log 13). -/
structure Work where
  acc     : Word16
  i       : Nat
  hi      : Byte
  lo      : Byte
  command : Byte
  status  : Byte
  n       : Byte
deriving DecidableEq, Repr

/-- The working registers at the start of an operation (R23); also their value in State.reset (DESIGN CHOICE, log 13). -/
def Work.zero : Work := ⟨0, 0, 0, 0, 0, 0, 0⟩

/-- One entry of the script: a row to execute, or the bytes of a frame the host writes (95_test_vectors.md WRITE_FRAME,
whose encoding is the frame's bytes) together with the row they select. Log 4, log 6. -/
inductive Slot where
  | op (i : Instr)
  | code (bytes : List Byte)
deriving DecidableEq, Repr

/-- The state: the registers of R10 and the working registers of R23. From `cfg` on the fields are the model's own, no
state of the core. -/
structure State where
  /-- The frame buffer FB (R11). -/
  fb        : Memory
  /-- LEN, an unsigned LEN_W-bit value (R12). -/
  len       : Nat
  /-- BUSY (R13). -/
  busy      : Bool
  /-- DONE (R13). -/
  done      : Bool
  /-- VERIFY_OK, ACC, CHK_RX (R14 to R16). -/
  ver       : VerifyRegs
  /-- PARSE_ST, BAD_START, BAD_END, COMMAND, PKT_STATUS, DLEN (R17 to R21). -/
  pkt       : ParseRegs
  /-- Working registers (R23). -/
  work      : Work
  /-- The parameter LEN_W (R7), never changed (log 1). -/
  cfg       : Config
  /-- The reset owed after power-up has happened (R162, log 15). -/
  wasReset  : Bool
  /-- FB or LEN was written during the operation in progress or last completed (R163, log 3). -/
  hazard    : Bool
  /-- How many free result sets have been drawn (log 3). -/
  draws     : Nat
  /-- The moves still to be made, oldest first (log 4). -/
  script    : List Slot
  /-- What the host's last HOST.READ answered (log 11). -/
  readout   : Option Nat
  /-- What the last CHK stood for (log 10). -/
  chkValue  : Option Word16
deriving DecidableEq, Repr

/-- Why a step stops with a fault: the host named something that does not exist. All are safe: no such move exists in
the hardware (log 14). -/
inductive Fault where
  /-- HOST.WRITE_FB or HOST.READ of an offset `>= FB_SIZE` (R40, R128 h1). Safe. -/
  | noSuchOffset (a : Nat)
  /-- HOST.WRITE_LEN, or a frame to be written, longer than FB_SIZE, which LEN cannot hold (R12, R128 h2). Safe. -/
  | lengthTooWide (n : Nat)
  /-- HOST.READ of `DATA[j]` with `j >= DLEN`: the view has exactly DLEN elements (R22). Safe. -/
  | noSuchData (j : Nat)
deriving DecidableEq, Repr

/-- Why a step is refused. -/
inductive Refusal where
  /-- An instruction without a meaning yet; raised by exec only. Safe. -/
  | notModelled (mnemonic : String)
  /-- Any move but HOST.RESET before the first reset after power-up, to which the spec gives no meaning (R162, U13).
  Raised by every meaning that moves the machine. Safe. -/
  | beforeFirstReset
  /-- FRAME with more than 255 data bytes: R70 defines it for 0 to 255. Raised by FRAME. Safe. -/
  | frameDataTooLong (n : Nat)
deriving DecidableEq, Repr

/-- The machine right after reset (R28, R160): phase IDLE, LEN and every result register zero, no byte of FB known.
The model's own fields: the reference LEN_W (log 1), the reset done (log 15), no hazard, no draw (log 3), an empty
script (log 4), nothing read (log 11), no CHK evaluated (log 10). -/
def State.reset : State :=
  { fb := [], len := 0, busy := false, done := false, ver := .zero, pkt := .zero, work := .zero,
    cfg := .reference, wasReset := true, hazard := false, draws := 0, script := [], readout := none, chkValue := none }

end Sys2Proof.Machine
end

