-- ==== Sys2Proof/Machine/Ops.lean ====
section
/-! DEFINITION. The named operations over the frame buffer and the registers, and the recording of a framing error. -/

namespace Sys2Proof.Machine

/-! The frame buffer (R40 to R43). -/

/-- The byte written at an offset, if one was. -/
def Memory.load : Memory → Nat → Option Byte
  | [], _ => none
  | (b, w) :: m, a => if a = b then some w else Memory.load m a

/-- Write a byte, keeping the offsets strictly rising. -/
def Memory.store : Memory → Nat → Byte → Memory
  | [], a, v => [(a, v)]
  | (b, w) :: m, a, v =>
    if a < b then (a, v) :: (b, w) :: m
    else if a = b then (a, v) :: m
    else (b, w) :: Memory.store m a v

/-- `FB[a]`, one unsigned byte (R42): what the host wrote there, else the unspecified content of power-up, which no
move changes (R11, R160, U4; log 2). -/
def fbRead (s : State) (a : Nat) : Byte := (Memory.load s.fb a).getD (Config.unwrittenByte a)

/-- The frame `FB[0..LEN-1]` (R41). -/
def frameOf (s : State) : List Byte := (List.range s.len).map (fbRead s)

/-- `FB[a] <- v` by the host (R128 h1). A write while BUSY = 1 is the hazard of R163. -/
def storeByte (a : Nat) (v : Byte) (s : State) : State :=
  { s with fb := Memory.store s.fb a v, hazard := s.hazard || s.busy }

/-- `LEN <- n` by the host (R128 h2); the same hazard. -/
def setLen (n : Nat) (s : State) : State := { s with len := n, hazard := s.hazard || s.busy }

/-- `FB[a+k] <- f[k]` for every k. -/
def storeBytes : Nat → List Byte → State → State
  | _, [], s => s
  | a, v :: f, s => storeBytes (a + 1) f (storeByte a v s)

/-- WRITE_FRAME f: `FB[k] <- f[k]` for every k and `LEN <- |f|` (95_test_vectors.md section 5). -/
def presentFrame (f : List Byte) (s : State) : State := setLen f.length (storeBytes 0 f s)

/-! Register updates. -/

/-- Write VERIFY_OK, ACC, CHK_RX. -/
def setVer (v : VerifyRegs) (s : State) : State := { s with ver := v }

/-- Write PARSE_ST, BAD_START, BAD_END, COMMAND, PKT_STATUS, DLEN. -/
def setPkt (p : ParseRegs) (s : State) : State := { s with pkt := p }

/-- Write the working registers. -/
def setWork (w : Work) (s : State) : State := { s with work := w }

/-- START accepted (R121): BUSY 1, DONE 0, every core-owned result register at its reset value; the working registers
are initialised (R23). FB and LEN stay. A new operation has no hazard yet (R163: "the next operation ... is
unaffected"). -/
def acceptStart (s : State) : State :=
  { s with busy := true, done := false, ver := .zero, pkt := .zero, work := .zero, hazard := false }

/-- START given (R121, R125): accepted when BUSY = 0, else ignored without a trace. -/
def giveStart (s : State) : State := if s.busy then s else acceptStart s

/-- The end of the completion step (R122): BUSY 0, DONE 1. -/
def finish (s : State) : State := { s with busy := false, done := true }

/-- The result registers after a hazard: each holds any value of its width (R163); the next draw is another (log 3). -/
def drawFree (s : State) : State :=
  { s with
    ver := ⟨Config.freeVerifyOk s.draws, Config.freeAcc s.draws, Config.freeChkRx s.draws⟩
    pkt := ⟨Config.freeParseSt s.draws, Config.freeBadStart s.draws, Config.freeBadEnd s.draws,
      Config.freeCommand s.draws, Config.freePktStatus s.draws, Config.freeDlen s.draws⟩
    draws := s.draws + 1 }

/-- Reset (R28, R160, R161): every core-owned register and LEN at its reset value, phase IDLE, FB unchanged. The
model's own fields stay but the two that follow the reset (log 15, log 3). -/
def resetRegs (s : State) : State :=
  { s with len := 0, busy := false, done := false, ver := .zero, pkt := .zero, work := .zero, hazard := false,
           wasReset := true }

/-- Take the first entry off the script. -/
def setScript (r : List Slot) (s : State) : State := { s with script := r }

/-- Hand a value to the host (R128 h4; log 11). -/
def setReadout (v : Nat) (s : State) : State := { s with readout := some v }

/-- Hand the value of a CHK to whoever wrote it (log 10). -/
def setChk (c : Word16) (s : State) : State := { s with chkValue := some c }

/-! Outcomes of PARSE (R17, R140 to R142). An error is a value, recorded by one operation: there is no trap, no saved
state and no handler (R141), and no return from one, nothing to acknowledge or clear (R145). -/

/-- PARSE_ST code OK (R17). -/
def psOk : BitVec 3 := 1
/-- PARSE_ST code TooShort (R17). -/
def psTooShort : BitVec 3 := 2
/-- PARSE_ST code BadMarker (R17). -/
def psBadMarker : BitVec 3 := 3
/-- PARSE_ST code TruncatedData (R17). -/
def psTruncatedData : BitVec 3 := 4

/-- What each framing error records: its code, the failed markers for BadMarker only, and zero packet registers (R108,
R142). -/
def ParseRegs.ofError : FramingError → ParseRegs
  | .tooShort => ⟨psTooShort, false, false, 0, 0, 0⟩
  | .badMarker bs be => ⟨psBadMarker, bs, be, 0, 0, 0⟩
  | .truncatedData => ⟨psTruncatedData, false, false, 0, 0, 0⟩

/-- What a packet records: OK, no marker flag, the header fields (R107, R142). -/
def ParseRegs.ofPacket (p : Packet) : ParseRegs := ⟨psOk, false, false, p.command, p.status, p.dataLength⟩

/-- `raise FramingError.X` (R9, R141, R142): the only taking of an exception this core has. -/
def raiseFraming (e : FramingError) (s : State) : State := setPkt (.ofError e) s

/-- Success of PARSE (R107). -/
def acceptPacket (p : Packet) (s : State) : State := setPkt (.ofPacket p) s

/-! Guards. -/

/-- Before the first reset after power-up no move has a meaning (R162, U13; log 15). -/
def afterReset (s : State) (o : Host.Outcome State Fault Refusal) : Host.Outcome State Fault Refusal :=
  if s.wasReset then o else .refused .beforeFirstReset

/-- A frame the host writes must fit the buffer and LEN (R7, R12; log 14). -/
def withFrame (f : List Byte) (s : State) (k : State → Host.Outcome State Fault Refusal) :
    Host.Outcome State Fault Refusal :=
  if f.length ≤ s.cfg.fbSize then k (presentFrame f s) else .fault (.lengthTooWide f.length)

end Sys2Proof.Machine
end

