-- ==== Sys2Proof/Machine/Operands.lean ====
section
/-! DEFINITION. The operands of the internal steps, read from FB by offset (R43, R47), the DATA view and the ports a
host reads. -/

namespace Sys2Proof.Machine

/-- The first byte (R102). Read only when `LEN >= 7`. -/
def startByte (s : State) : Byte := fbRead s offStart

/-- The last byte, `FB[LEN-1]`, found from LEN and never from N (R71, R102). Read only when `LEN >= 7`. -/
def endByte (s : State) : Byte := fbRead s (s.len - 1)

/-- `FB[LEN-3]`, the high byte of the received checksum (R44, R86). Read only when `LEN >= 6`. -/
def chkHiByte (s : State) : Byte := fbRead s (s.len - 3)

/-- `FB[LEN-2]`, the low byte (R44, R86). Read only when `LEN >= 6`. -/
def chkLoByte (s : State) : Byte := fbRead s (s.len - 2)

/-- The body bytes from the byte index to `LEN-4`, in ascending offset order (R82, R84). -/
def bodyFrom (s : State) (i : Nat) : List Byte := (List.range (s.len - trailerLen - i)).map fun k => fbRead s (i + k)

/-- The 16-bit wrapping accumulator over some bytes: from 0x0000, `acc <- (acc - zext_16(b)) mod 65536` (R84). -/
def accumulate (bytes : List Byte) : Word16 := bytes.foldl (fun acc b => acc - b.zeroExtend 16) 0

/-- The n bytes at offsets `4..4+n-1`, in offset order (R63, R106). -/
def dataBytes (s : State) (n : Nat) : List Byte := (List.range n).map fun j => fbRead s (offData + j)

/-- The DATA view: `DATA[j] = FB[4+j]` for `0 <= j < DLEN` (R22, R106). Its extent is DLEN alone; after a hazard, where
DLEN may be nonzero with PARSE_ST other than 1 or reach past LEN, that is a DESIGN CHOICE (log 18). -/
def dataView (s : State) : List Byte := dataBytes s s.pkt.dlen.toNat

/-- A 1-bit register as the host reads it. -/
def bit (b : Bool) : Nat := if b then 1 else 0

/-- What a port reads as, an unsigned number (R10), or why there is nothing to read (log 14). An element of DATA exists
below DLEN, whatever PARSE_ST and LEN hold after a hazard (DESIGN CHOICE, log 18). -/
def portValue (p : Port) (s : State) : Except Fault Nat :=
  match p with
  | .fb a => if a < s.cfg.fbSize then .ok (fbRead s a).toNat else .error (.noSuchOffset a)
  | .len => .ok s.len
  | .busy => .ok (bit s.busy)
  | .done => .ok (bit s.done)
  | .verifyOk => .ok (bit s.ver.verifyOk)
  | .acc => .ok s.ver.acc.toNat
  | .chkRx => .ok s.ver.chkRx.toNat
  | .parseSt => .ok s.pkt.parseSt.toNat
  | .badStart => .ok (bit s.pkt.badStart)
  | .badEnd => .ok (bit s.pkt.badEnd)
  | .command => .ok s.pkt.command.toNat
  | .pktStatus => .ok s.pkt.pktStatus.toNat
  | .dlen => .ok s.pkt.dlen.toNat
  | .data j => if j < s.pkt.dlen.toNat then .ok (fbRead s (offData + j)).toNat else .error (.noSuchData j)

end Sys2Proof.Machine
end

