-- ==== Sys2Proof/Machine/Flags.lean ====
section
/-! DEFINITION. The flags of the core (R25: exactly BUSY, DONE, VERIFY_OK, BAD_START, BAD_END) and the phase BUSY and
DONE encode (R13). No carry, overflow, zero or sign flag exists. -/

namespace Sys2Proof.Machine

/-- The phases of R13. -/
inductive Phase where
  | idle
  | running
  | finished
deriving DecidableEq, Repr

/-- `(BUSY, DONE)` as a phase; `(1, 1)` is none (R13). -/
def phase (s : State) : Option Phase :=
  match s.busy, s.done with
  | false, false => some .idle
  | true, false => some .running
  | false, true => some .finished
  | true, true => none

/-- The comparison behind BAD_START: `FB[0] != 0xDD` (R102, R103). -/
def startWrong (s : State) : Bool := startByte s != startMarker

/-- The comparison behind BAD_END: `FB[LEN-1] != 0x77` (R102, R103). -/
def endWrong (s : State) : Bool := endByte s != endMarker

/-- Neither marker is wrong (R102). -/
def markersRight (s : State) : Bool := !startWrong s && !endWrong s

/-- The comparison behind VERIFY_OK: both encoded bytes equal the received ones (R87). -/
def checksumMatches (hi lo : Byte) (s : State) : Bool := hi == chkHiByte s && lo == chkLoByte s

/-- VERIFY_OK, ACC and CHK_RX for a frame (R14 to R16, R80). -/
def verifyRegsOf (f : List Byte) : VerifyRegs := ⟨verifyFrame f, computedChecksum f, receivedChecksum f⟩

/-- PARSE_ST, BAD_START, BAD_END and the packet registers for a frame (R17 to R21, R142). -/
def parseRegsOf (f : List Byte) : ParseRegs :=
  match parseFrame f with
  | .error e => .ofError e
  | .ok p => .ofPacket p

end Sys2Proof.Machine
end

