-- ==== Sys2Proof/Machine/Parse.lean ====
section
/-! DEFINITION. PARSE (R100) and its internal steps LENCHECK, MARKERS, MARKER_ID, HEADER, DLENCHECK, DATA (R101 to
R107). A step whose check is not reached, because an earlier check failed (R109), does nothing. -/

namespace Sys2Proof.Machine

/-- PARSE on the frame in the buffer: ends in exactly one of OK, TooShort, BadMarker, TruncatedData (R100). -/
def runParse (s : State) : State :=
  match parseFrame (frameOf s) with
  | .error e => raiseFraming e s
  | .ok p => acceptPacket p s

/-- PARSE (R100 to R114). -/
def execParse (s : State) : Host.Outcome State Fault Refusal := afterReset s (.next (runParse s))

/-- PARSE.LENCHECK: `LEN < 7` is TooShort (R101). -/
def execParseLencheck (s : State) : Host.Outcome State Fault Refusal :=
  afterReset s (.next (if s.len < minParseLen then raiseFraming .tooShort s else s))

/-- PARSE.MARKERS: a wrong first or last byte is BadMarker (R102); which one is MARKER_ID's to record. -/
def execParseMarkers (s : State) : Host.Outcome State Fault Refusal :=
  afterReset s (.next (if s.len < minParseLen ∨ markersRight s then s else raiseFraming (.badMarker false false) s))

/-- PARSE.MARKER_ID: on BadMarker, `BAD_START <- (FB[0] != 0xDD)`, `BAD_END <- (FB[LEN-1] != 0x77)` (R103). -/
def execParseMarkerId (s : State) : Host.Outcome State Fault Refusal :=
  afterReset s (.next (if s.len < minParseLen ∨ markersRight s then s else
    setPkt { s.pkt with badStart := startWrong s, badEnd := endWrong s } s))

/-- PARSE.HEADER: with both markers correct, `command = FB[1]`, `status = FB[2]`, `N = FB[3]`, held in the working
registers until the next check has passed (R104). -/
def execParseHeader (s : State) : Host.Outcome State Fault Refusal :=
  afterReset s (.next (if s.len < minParseLen ∨ !markersRight s then s else
    setWork { s.work with command := fbRead s offCommand, status := fbRead s offStatus, n := fbRead s offDlen } s))

/-- PARSE.DLENCHECK: `LEN < N + 7`, on unbounded integers, is TruncatedData (R105, R113). -/
def execParseDlencheck (s : State) : Host.Outcome State Fault Refusal :=
  afterReset s (.next (if s.len < minParseLen ∨ !markersRight s then s else
    if s.len < s.work.n.toNat + frameOverhead then raiseFraming .truncatedData s else s))

/-- PARSE.DATA: the N data bytes become the DATA view, `DATA[j] = FB[4+j]` (R106), by the success write of the header
fields and PARSE_ST (R107). -/
def execParseData (s : State) : Host.Outcome State Fault Refusal :=
  afterReset s (.next (if s.len < minParseLen ∨ !markersRight s ∨ s.len < s.work.n.toNat + frameOverhead then s else
    acceptPacket ⟨s.work.command, s.work.status, s.work.n, dataBytes s s.work.n.toNat⟩ s))

end Sys2Proof.Machine
end

