-- ==== Sys2Proof/Machine/Verify.lean ====
section
/-! DEFINITION. VERIFY (R80) and its internal steps GUARD, BODY, ACCUMULATE, ENCODE, FETCH, COMPARE (R81 to R87). -/

namespace Sys2Proof.Machine

/-- VERIFY on the frame in the buffer: writes VERIFY_OK, ACC, CHK_RX (R80). -/
def runVerify (s : State) : State := setVer (verifyRegsOf (frameOf s)) s

/-- VERIFY (R80 to R93). -/
def execVerify (s : State) : Host.Outcome State Fault Refusal := afterReset s (.next (runVerify s))

/-- VERIFY.GUARD: below 6 bytes the three registers are cleared and no byte is read (R81). -/
def execVerifyGuard (s : State) : Host.Outcome State Fault Refusal :=
  afterReset s (.next (if s.len < minVerifyLen then setVer .zero s else s))

/-- VERIFY.BODY: for `LEN >= 6` the body starts at offset 2; it ends at `LEN-4`, fixed by LEN alone (R82). -/
def execVerifyBody (s : State) : Host.Outcome State Fault Refusal :=
  afterReset s (.next (if s.len < minVerifyLen then s else setWork { s.work with i := bodyFirst } s))

/-- VERIFY.ACCUMULATE: the 16-bit register subtracts each body byte with silent wrap; its final value is ACC (R83,
R84). -/
def execVerifyAccumulate (s : State) : Host.Outcome State Fault Refusal :=
  afterReset s (.next (if s.len < minVerifyLen then s else
    let crc := accumulate (bodyFrom s s.work.i)
    setVer { s.ver with acc := crc } (setWork { s.work with acc := crc, i := s.len - trailerLen } s)))

/-- VERIFY.ENCODE: `hi = crc[15:8]`, `lo = crc[7:0]` (R85). -/
def execVerifyEncode (s : State) : Host.Outcome State Fault Refusal :=
  afterReset s (.next (if s.len < minVerifyLen then s else
    setWork { s.work with hi := hiByte s.work.acc, lo := loByte s.work.acc } s))

/-- VERIFY.FETCH: `CHK_RX <- {FB[LEN-3], FB[LEN-2]}` (R86). -/
def execVerifyFetch (s : State) : Host.Outcome State Fault Refusal :=
  afterReset s (.next (if s.len < minVerifyLen then s else
    setVer { s.ver with chkRx := beWord (chkHiByte s) (chkLoByte s) } s))

/-- VERIFY.COMPARE: `VERIFY_OK <- (hi == FB[LEN-3]) and (lo == FB[LEN-2])` (R87). -/
def execVerifyCompare (s : State) : Host.Outcome State Fault Refusal :=
  afterReset s (.next (if s.len < minVerifyLen then s else
    setVer { s.ver with verifyOk := checksumMatches s.work.hi s.work.lo s } s))

end Sys2Proof.Machine
end

