-- ==== Sys2Proof/Machine/Run.lean ====
section
/-! DEFINITION. The core's completion step (R122) and the operation RUN (R120), START to DONE. -/

namespace Sys2Proof.Machine

/-- The completion step: enabled iff BUSY = 1, it writes both results and then the flags; after a hazard every result
register is free (R122, R163). With BUSY = 0 the core does nothing (R128; log 8). -/
def completeOp (s : State) : State :=
  if s.busy then finish (if s.hazard then drawFree s else runParse (runVerify s)) else s

/-- COMPLETE (R122), the core's move c1. -/
def execComplete (s : State) : Host.Outcome State Fault Refusal := afterReset s (.next (completeOp s))

/-- RUN: an accepted START and its completion step, nothing in between; while BUSY = 1 the START is ignored and so
nothing changes (R120, R121, R122, R125; log 7). -/
def runOp (s : State) : State := if s.busy then s else completeOp (acceptStart s)

/-- RUN (R120). -/
def execRun (s : State) : Host.Outcome State Fault Refusal := afterReset s (.next (runOp s))

end Sys2Proof.Machine
end

