-- ==== Sys2Proof/Machine/Frames.lean ====
section
/-! DEFINITION. The rows that stand for frames and values rather than for operations of the core: REQ_HWINFO (R68) and
the pseudo-operations CHK and FRAME (R70). -/

namespace Sys2Proof.Machine

/-- REQ_HWINFO: the literal frame presented to the core as a frame, that is written by the host and RUN (R68; log 9). -/
def execReqHwinfo (s : State) : Host.Outcome State Fault Refusal :=
  afterReset s (withFrame reqHwinfoBytes s fun t => .next (runOp t))

/-- CHK(body): a 16-bit value and no move of the machine, so it needs no reset (R70; log 10). -/
def execChk (body : List Byte) (s : State) : Host.Outcome State Fault Refusal := .next (setChk (chkOf body) s)

/-- FRAME(cmd, status, data, slack): its expansion is written as the frame (R70; log 10); defined for 0 to 255 data
bytes. -/
def execFrame (cmd status : Byte) (data slack : List Byte) (s : State) : Host.Outcome State Fault Refusal :=
  afterReset s (if data.length ≤ 255 then withFrame (frameBytes cmd status data slack) s fun t => .next t
    else .refused (.frameDataTooLong data.length))

end Sys2Proof.Machine
end

