-- ==== Sys2Proof/Machine/HostMoves.lean ====
section
/-! DEFINITION. The host moves h1 to h5 (R128). -/

namespace Sys2Proof.Machine

/-- HOST.WRITE_FB (h1): `FB[a] <- v` for `0 <= a < FB_SIZE`; while BUSY = 1 it is the hazard of R163. -/
def execHostWriteFb (a : Nat) (v : Byte) (s : State) : Host.Outcome State Fault Refusal :=
  afterReset s (if a < s.cfg.fbSize then .next (storeByte a v s) else .fault (.noSuchOffset a))

/-- HOST.WRITE_LEN (h2): `LEN <- n` for `0 <= n <= FB_SIZE`; the same hazard. -/
def execHostWriteLen (n : Nat) (s : State) : Host.Outcome State Fault Refusal :=
  afterReset s (if n ≤ s.cfg.fbSize then .next (setLen n s) else .fault (.lengthTooWide n))

/-- HOST.START (h3): accepted or ignored (R121, R125). -/
def execHostStart (s : State) : Host.Outcome State Fault Refusal := afterReset s (.next (giveStart s))

/-- HOST.READ (h4): the port's value goes to the host, the core keeps its state (R127, R128; log 11). -/
def execHostRead (p : Port) (s : State) : Host.Outcome State Fault Refusal :=
  afterReset s (match portValue p s with
    | .ok v => .next (setReadout v s)
    | .error e => .fault e)

/-- HOST.RESET (h5), in any state, also before the first reset (R160, R161, R162). -/
def execHostReset (s : State) : Host.Outcome State Fault Refusal := .next (resetRegs s)

end Sys2Proof.Machine
end

