-- ==== Sys2Proof/Machine/Dispatch.lean ====
section
/-! DEFINITION. One arm per row of spec/opcode_table.json. -/

namespace Sys2Proof.Machine

def exec (i : Instr) (s : State) : Host.Outcome State Fault Refusal :=
  match i with
  | .run => Sys2Proof.Machine.execRun s
  | .verify => Sys2Proof.Machine.execVerify s
  | .parse => Sys2Proof.Machine.execParse s
  | .reqHwinfo => Sys2Proof.Machine.execReqHwinfo s
  | .verifyGuard => Sys2Proof.Machine.execVerifyGuard s
  | .verifyBody => Sys2Proof.Machine.execVerifyBody s
  | .verifyAccumulate => Sys2Proof.Machine.execVerifyAccumulate s
  | .verifyEncode => Sys2Proof.Machine.execVerifyEncode s
  | .verifyFetch => Sys2Proof.Machine.execVerifyFetch s
  | .verifyCompare => Sys2Proof.Machine.execVerifyCompare s
  | .parseLencheck => Sys2Proof.Machine.execParseLencheck s
  | .parseMarkers => Sys2Proof.Machine.execParseMarkers s
  | .parseMarkerId => Sys2Proof.Machine.execParseMarkerId s
  | .parseHeader => Sys2Proof.Machine.execParseHeader s
  | .parseDlencheck => Sys2Proof.Machine.execParseDlencheck s
  | .parseData => Sys2Proof.Machine.execParseData s
  | .complete => Sys2Proof.Machine.execComplete s
  | .hostWriteFb a v => Sys2Proof.Machine.execHostWriteFb a v s
  | .hostWriteLen n => Sys2Proof.Machine.execHostWriteLen n s
  | .hostStart => Sys2Proof.Machine.execHostStart s
  | .hostRead p => Sys2Proof.Machine.execHostRead p s
  | .hostReset => Sys2Proof.Machine.execHostReset s
  | .chk body => Sys2Proof.Machine.execChk body s
  | .frame cmd status data slack => Sys2Proof.Machine.execFrame cmd status data slack s

end Sys2Proof.Machine
end

