-- ==== Sys2Proof/Machine/Step.lean ====
section
/-! DEFINITION. One step: the first entry of the script, or, when the host has nothing left to do, the core's own move
(R128; log 4, log 5). -/

namespace Sys2Proof.Machine

/-- One step of the machine. With an empty script only the core can move: COMPLETE, which does nothing while BUSY = 0.
A row is executed; the bytes of a frame are written into FB and LEN and the row they select is executed (log 6). -/
def step (s : State) : Host.Outcome State Fault Refusal :=
  match s.script with
  | [] => exec .complete s
  | .op i :: rest => exec i (setScript rest s)
  | .code bytes :: rest => afterReset s (withFrame bytes (setScript rest s) (exec (rowOf bytes)))

/-- The state with a table word as its next entry: nothing else changes. -/
def State.withFetchWord (s : State) (nbits w : Nat) : State :=
  setScript (.code (tableBytes (nbits / 8) w) :: s.script) s

/-- Execute rows one after the other, stopping at the first fault or refusal. -/
def execAll : List Instr → State → Host.Outcome State Fault Refusal
  | [], s => .next s
  | i :: is, s =>
    match exec i s with
    | .next t => execAll is t
    | .fault r => .fault r
    | .refused r => .refused r

end Sys2Proof.Machine
end

