-- ==== Sys2Proof/WellFormed.lean ====
section
/-! DEFINITION. Operand ranges (R70, R128), and which rows are steps of the machine (R128), of an operation in progress
(R131) and of the host writing (R163). -/

namespace Sys2Proof

/-- A port names something that can exist: an offset of FB (R40), an element of DATA, whose length DLEN is at most
255 (R21, R22), or a register. -/
def Port.wellFormed (c : Config) : Port → Bool
  | .fb a => decide (a < c.fbSize)
  | .data j => decide (j < 255)
  | .len | .busy | .done | .verifyOk | .acc | .chkRx | .parseSt | .badStart | .badEnd | .command | .pktStatus
  | .dlen => true

/-- The operands lie in the ranges the spec gives: `0 <= a < FB_SIZE` and `0 <= n <= FB_SIZE` (R128 h1, h2), data of
0 to 255 bytes (R70) and a frame that the buffer can hold (R7). -/
def Instr.wellFormed (c : Config) : Instr → Bool
  | .hostWriteFb a _ => decide (a < c.fbSize)
  | .hostWriteLen n => decide (n ≤ c.fbSize)
  | .hostRead p => p.wellFormed c
  | .frame _ _ data slack => decide (data.length ≤ 255 ∧ data.length + slack.length + 7 ≤ c.fbSize)
  | .reqHwinfo => decide (7 ≤ c.fbSize)
  | .run | .verify | .parse | .verifyGuard | .verifyBody | .verifyAccumulate | .verifyEncode | .verifyFetch
  | .verifyCompare | .parseLencheck | .parseMarkers | .parseMarkerId | .parseHeader | .parseDlencheck | .parseData
  | .complete | .hostStart | .hostReset | .chk _ => true

/-- The rows that are steps of the machine or are made of such steps: the host moves h1 to h5 and the core's move c1
(R128, the complete list), RUN, the frames the host writes, and CHK, which moves nothing. VERIFY, PARSE and their
internal steps are not separately selectable (R66, R120; log 12). -/
def Instr.isMove : Instr → Bool
  | .verify | .parse | .verifyGuard | .verifyBody | .verifyAccumulate | .verifyEncode | .verifyFetch
  | .verifyCompare | .parseLencheck | .parseMarkers | .parseMarkerId | .parseHeader | .parseDlencheck
  | .parseData => false
  | .run | .reqHwinfo | .complete | .hostWriteFb _ _ | .hostWriteLen _ | .hostStart | .hostRead _ | .hostReset
  | .chk _ | .frame _ _ _ _ => true

/-- A host row that keeps the rules of an operation in progress (R163, R131 p4): it reads an existing register or FB
byte, gives a START, which is ignored (R125), or evaluates a CHK; it writes neither FB nor LEN and does not reset. -/
def Instr.quiet (c : Config) : Instr → Bool
  | .hostRead (.data _) => false
  | .hostRead p => p.wellFormed c
  | .hostStart | .chk _ => true
  | .run | .verify | .parse | .reqHwinfo | .verifyGuard | .verifyBody | .verifyAccumulate | .verifyEncode
  | .verifyFetch | .verifyCompare | .parseLencheck | .parseMarkers | .parseMarkerId | .parseHeader | .parseDlencheck
  | .parseData | .complete | .hostWriteFb _ _ | .hostWriteLen _ | .hostReset | .frame _ _ _ _ => false

/-- A host row that writes FB or LEN within their ranges. -/
def Instr.writes (c : Config) : Instr → Bool
  | .hostWriteFb a _ => decide (a < c.fbSize)
  | .hostWriteLen n => decide (n ≤ c.fbSize)
  | .run | .verify | .parse | .reqHwinfo | .verifyGuard | .verifyBody | .verifyAccumulate | .verifyEncode
  | .verifyFetch | .verifyCompare | .parseLencheck | .parseMarkers | .parseMarkerId | .parseHeader | .parseDlencheck
  | .parseData | .complete | .hostStart | .hostRead _ | .hostReset | .chk _ | .frame _ _ _ _ => false

end Sys2Proof
end

