-- ==== Sys2Proof/Safety.lean ====
section
/-! DEFINITION. What claims call a good state and a quiet run. -/

namespace Sys2Proof.Machine

/-- The structural invariant: LEN_W at least 9 (R7), LEN a legal value (R12), FB in canonical form with every listed
offset inside the buffer (R40), and, once reset, not both BUSY and DONE (R13). -/
structure State.Inv (s : State) : Prop where
  lenW   : s.cfg.Wf
  len    : s.len ≤ s.cfg.fbSize
  fbWf   : Memory.wf s.fb = true
  fbIn   : ∀ c ∈ s.fb, c.1 < s.cfg.fbSize
  phase  : s.wasReset = true → ¬ (s.busy = true ∧ s.done = true)

/-- The PARSE registers as one completed operation can leave them (R17, R18, R108, R142): a code 1 to 4, marker flags
on BadMarker only and then at least one, packet registers zero but on OK. -/
structure ParseRegs.Legal (p : ParseRegs) : Prop where
  code     : p.parseSt = psOk ∨ p.parseSt = psTooShort ∨ p.parseSt = psBadMarker ∨ p.parseSt = psTruncatedData
  noFlags  : p.parseSt ≠ psBadMarker → p.badStart = false ∧ p.badEnd = false
  someFlag : p.parseSt = psBadMarker → p.badStart = true ∨ p.badEnd = true
  noFields : p.parseSt ≠ psOk → p.command = 0 ∧ p.pktStatus = 0 ∧ p.dlen = 0

/-- Every entry of the script is a step of the machine (R128), so that VERIFY, PARSE and their internal steps, which
are not separately selectable (R66), occur only inside COMPLETE. -/
def State.scriptOfMoves (s : State) : Prop := ∀ e ∈ s.script, ∃ i, e = .op i ∧ i.isMove = true

/-- The result registers fit the phase: without DONE they hold their reset values (R121, R127), with DONE and no hazard
they are those of one completed operation, VERIFY_OK only with equal checksums (R16, R122); a hazard exists only in an
operation that runs or has completed (R163). -/
structure State.Coherent (s : State) : Prop where
  reset  : s.wasReset = true
  moves  : s.scriptOfMoves
  phase  : ¬ (s.busy = true ∧ s.done = true)
  notYet : s.done = false → s.ver = .zero ∧ s.pkt = .zero
  legal  : s.done = true → s.hazard = false → s.pkt.Legal
  equal  : s.done = true → s.hazard = false → s.ver.verifyOk = true → s.ver.acc = s.ver.chkRx
  hazard : s.hazard = true → s.busy = true ∨ s.done = true

end Sys2Proof.Machine
end

