-- ==== Sys2Proof/Certificates/Slice0/Obligations.lean ====
section
/-! DEFINITION. The statements for the provers. Every conclusion of the form `exec i s = .next …` is also the row's
completion statement: it holds for every state and operands that meet its hypotheses, and the record update it names
says what changes, everything else staying. -/

open Sys2Proof Sys2Proof.Machine

/-! ## Reset -/

/-- R28: the value of every register after reset, DATA empty, no byte of FB known, and the same result registers at
every accepted START. -/
def Obligations.ResetValues : Prop :=
  State.reset.len = 0 ∧ State.reset.busy = false ∧ State.reset.done = false
  ∧ State.reset.ver.verifyOk = false ∧ State.reset.ver.acc = 0 ∧ State.reset.ver.chkRx = 0
  ∧ State.reset.pkt.parseSt = 0 ∧ State.reset.pkt.badStart = false ∧ State.reset.pkt.badEnd = false
  ∧ State.reset.pkt.command = 0 ∧ State.reset.pkt.pktStatus = 0 ∧ State.reset.pkt.dlen = 0
  ∧ dataView State.reset = [] ∧ (∀ a, Memory.load State.reset.fb a = none)
  ∧ ∀ s : State, s.wasReset = true → s.busy = false →
      ∃ t, exec .hostStart s = .next t ∧ t.ver = State.reset.ver ∧ t.pkt = State.reset.pkt

/-- R160 (with R161, R162): reset in any state, an operation in progress included, gives the reset values, BUSY = 0 among
them, and leaves FB; a START is accepted at once and operates on the empty frame: VERIFY_OK = 0, PARSE_ST = 2. The working
registers are left open here. -/
def Obligations.ResetFromAnyState : Prop :=
  ∀ s : State, ∃ w t, exec .hostReset s = .next t
    ∧ t = { s with len := 0, busy := false, done := false, ver := ⟨false, 0, 0⟩,
                   pkt := ⟨0, false, false, 0, 0, 0⟩, work := w, hazard := false, wasReset := true }
    ∧ dataView t = []
    ∧ (∃ u, exec .hostStart t = .next u ∧ u.busy = true)
    ∧ ∃ u, execAll [.hostStart, .complete] t = .next u
        ∧ u.busy = false ∧ u.done = true ∧ u.ver.verifyOk = false ∧ u.pkt.parseSt = 2

/-- R162 with U13: before the first reset after power-up every row that moves the machine, HOST.RESET excepted, is
refused. Refusing is the treatment U13 names (log 15). -/
def Obligations.NoMoveBeforeFirstReset : Prop :=
  ∀ (i : Instr) (s : State), s.wasReset = false → i ≠ .hostReset → (∀ body, i ≠ .chk body) →
    exec i s = .refused .beforeFirstReset

/-! ## START, COMPLETE, RUN -/

/-- R121: START accepted. The accumulator is initialised (R23); the other working registers are left open here. -/
def Obligations.StartAccepted : Prop :=
  ∀ s : State, s.wasReset = true → s.busy = false →
    ∃ w : Work, w.acc = 0 ∧ exec .hostStart s = .next
      { s with busy := true, done := false, ver := ⟨false, 0, 0⟩, pkt := ⟨0, false, false, 0, 0, 0⟩, work := w,
               hazard := false }

/-- R125: START while BUSY = 1 changes nothing, and the operation completes as if it had not occurred. -/
def Obligations.StartIgnoredWhileBusy : Prop :=
  ∀ s : State, s.wasReset = true → s.busy = true →
    exec .hostStart s = .next s ∧ execAll [.hostStart, .complete] s = exec .complete s

/-- R122, R142: the completion step of an operation without a hazard writes verify and parse of the frame and then the
flags, and nothing else. -/
def Obligations.CompletionWritesBothResults : Prop :=
  ∀ s : State, s.wasReset = true → s.busy = true → s.hazard = false →
    exec .complete s = .next
      { s with
        ver := ⟨verifyFrame (frameOf s), computedChecksum (frameOf s), receivedChecksum (frameOf s)⟩
        pkt := (match parseFrame (frameOf s) with
          | .error .tooShort => ⟨2, false, false, 0, 0, 0⟩
          | .error (.badMarker bs be) => ⟨3, bs, be, 0, 0, 0⟩
          | .error .truncatedData => ⟨4, false, false, 0, 0, 0⟩
          | .ok p => ⟨1, false, false, p.command, p.status, p.dataLength⟩)
        busy := false
        done := true }

/-- R163: an operation with a hazard still completes, and each of its nine result registers is the free value of the
current draw, about which nothing is known (log 3); the next draw is another. -/
def Obligations.CompletionAfterHazardIsFree : Prop :=
  ∀ s : State, s.wasReset = true → s.busy = true → s.hazard = true →
    exec .complete s = .next
      { s with
        ver := ⟨Config.freeVerifyOk s.draws, Config.freeAcc s.draws, Config.freeChkRx s.draws⟩
        pkt := ⟨Config.freeParseSt s.draws, Config.freeBadStart s.draws, Config.freeBadEnd s.draws,
          Config.freeCommand s.draws, Config.freePktStatus s.draws, Config.freeDlen s.draws⟩
        draws := s.draws + 1
        busy := false
        done := true }

/-- Rows that are not enabled change nothing: the core never acts while BUSY = 0 (R128), so that no completion follows a
reset (R161), and a START while BUSY = 1 is ignored (R125). That the COMPLETE row then does nothing, and the RUN row as a
whole, is the model's choice (log 8, log 7). -/
def Obligations.DisabledRowsChangeNothing : Prop :=
  ∀ s : State, s.wasReset = true →
    (s.busy = false → exec .complete s = .next s) ∧ (s.busy = true → exec .run s = .next s)

/-- R120: one RUN performs VERIFY and PARSE on the same snapshot and delivers both results together: RUN is START and
its completion, with the results VERIFY and PARSE give on the buffer as it stood. That the RUN row is START and COMPLETE
in one step of the model is log 7. -/
def Obligations.RunDeliversBothResults : Prop :=
  ∀ s : State, s.wasReset = true → s.busy = false →
    ∃ t v p, exec .run s = .next t ∧ execAll [.hostStart, .complete] s = .next t
      ∧ exec .verify s = .next v ∧ exec .parse s = .next p
      ∧ t = { s with ver := v.ver, pkt := p.pkt, busy := false, done := true, work := t.work, hazard := false }

/-- R90, R112, R130: the results of a RUN depend on LEN and the bytes below LEN alone, whatever the two
machines did before and whatever stands at or beyond LEN. -/
def Obligations.ResultsDependOnFrameAlone : Prop :=
  ∀ s t : State, s.wasReset = true → t.wasReset = true → s.busy = false → t.busy = false → s.len = t.len →
    (∀ a, a < s.len → fbRead s a = fbRead t a) →
    ∃ s' t', exec .run s = .next s' ∧ exec .run t = .next t' ∧ s'.ver = t'.ver ∧ s'.pkt = t'.pkt

/-- R131 with R122: from an accepted START, whatever quiet rows the host executes while the operation runs (reads,
ignored STARTs), the completion leaves the results of verify and parse for the snapshot, the frame at the START. -/
def Obligations.SnapshotDeterminesResults : Prop :=
  ∀ (s : State) (rows : List Instr), s.wasReset = true → s.busy = false → (∀ i ∈ rows, i.quiet s.cfg = true) →
    ∃ t, execAll (.hostStart :: (rows ++ [.complete])) s = .next t
      ∧ t.busy = false ∧ t.done = true ∧ t.fb = s.fb ∧ t.len = s.len
      ∧ t.ver = ⟨verifyFrame (frameOf s), computedChecksum (frameOf s), receivedChecksum (frameOf s)⟩
      ∧ t.pkt = (match parseFrame (frameOf s) with
          | .error .tooShort => ⟨2, false, false, 0, 0, 0⟩
          | .error (.badMarker bs be) => ⟨3, bs, be, 0, 0, 0⟩
          | .error .truncatedData => ⟨4, false, false, 0, 0, 0⟩
          | .ok p => ⟨1, false, false, p.command, p.status, p.dataLength⟩)

/-- R163: any writes to FB or LEN, at least one, between an accepted START and the completion: the operation completes
with free results, the writes stand, and the next operation is unaffected: it has the results of the buffer as it now
stands. -/
def Obligations.WritesDuringOperationFreeItsResults : Prop :=
  ∀ (s : State) (rows : List Instr), s.wasReset = true → s.busy = false → rows ≠ [] →
    (∀ i ∈ rows, i.writes s.cfg = true) →
    ∃ t u w, execAll (.hostStart :: (rows ++ [.complete])) s = .next t
      ∧ execAll rows s = .next w ∧ t.fb = w.fb ∧ t.len = w.len
      ∧ t.busy = false ∧ t.done = true
      ∧ t.ver = ⟨Config.freeVerifyOk s.draws, Config.freeAcc s.draws, Config.freeChkRx s.draws⟩
      ∧ t.pkt = ⟨Config.freeParseSt s.draws, Config.freeBadStart s.draws, Config.freeBadEnd s.draws,
          Config.freeCommand s.draws, Config.freePktStatus s.draws, Config.freeDlen s.draws⟩
      ∧ exec .run t = .next u
      ∧ u.ver = ⟨verifyFrame (frameOf t), computedChecksum (frameOf t), receivedChecksum (frameOf t)⟩
      ∧ u.pkt = parseRegsOf (frameOf t)

/-- R126: a running operation completes. With any quiet rows still in the script, one step more than they are brings DONE.
That those rows are steps of a script is the model's choice (log 4), and that a step with an empty script is the
completion is too (log 5). -/
def Obligations.RunningOperationCompletes : Prop :=
  ∀ (s : State) (rows : List Instr), s.wasReset = true → s.busy = true →
    s.script = rows.map .op → (∀ i ∈ rows, i.quiet s.cfg = true) →
    ∃ t, Sys2Proof.core.run (rows.length + 1) s = .next t ∧ t.busy = false ∧ t.done = true

/-! ## VERIFY -/

/-- R81: below 6 bytes VERIFY, and its GUARD step, give false with ACC and CHK_RX 0x0000, whatever the bytes are; from 6
bytes on GUARD lets pass. -/
def Obligations.VerifyGuardsShortFrames : Prop :=
  ∀ s : State, s.wasReset = true →
    (s.len < 6 → exec .verify s = .next { s with ver := ⟨false, 0, 0⟩ }
      ∧ exec .verifyGuard s = .next { s with ver := ⟨false, 0, 0⟩ })
    ∧ (6 ≤ s.len → exec .verifyGuard s = .next s)

/-- The steps of VERIFY behind a guard that returned (R81) are not reached; the model's rows for them then do nothing
(log 12). -/
def Obligations.StepsBehindTheGuardDoNothing : Prop :=
  ∀ s : State, s.wasReset = true → s.len < 6 →
    ∀ i ∈ [Instr.verifyBody, .verifyAccumulate, .verifyEncode, .verifyFetch, .verifyCompare], exec i s = .next s

/-- R83: for `LEN >= 6` ACC becomes `(65536 - sum(body)) mod 65536` over the unbounded sum of the bytes at offsets
`2..LEN-4`, so that sum and ACC add up to 0 modulo 65536; only VERIFY's registers change. -/
def Obligations.VerifyComputesChecksum : Prop :=
  ∀ s : State, s.wasReset = true → 6 ≤ s.len →
    ∃ t, exec .verify s = .next t ∧ t = { s with ver := t.ver }
      ∧ (t.ver.acc.toNat : Int)
          = (65536 - (((List.range (s.len - 5)).map fun k => (fbRead s (2 + k)).toNat).sum : Int)) % 65536
      ∧ (((List.range (s.len - 5)).map fun k => (fbRead s (2 + k)).toNat).sum + t.ver.acc.toNat) % 65536 = 0

/-- R86, R87: CHK_RX is `{FB[LEN-3], FB[LEN-2]}` and VERIFY_OK is 1 iff both encoded bytes of ACC equal them,
equivalently iff ACC = CHK_RX. -/
def Obligations.VerifyComparesByteForByte : Prop :=
  ∀ s : State, s.wasReset = true → 6 ≤ s.len →
    ∃ t, exec .verify s = .next t ∧ t = { s with ver := t.ver }
      ∧ t.ver.chkRx.toNat = (fbRead s (s.len - 3)).toNat * 256 + (fbRead s (s.len - 2)).toNat
      ∧ (t.ver.verifyOk = true ↔ hiByte t.ver.acc = fbRead s (s.len - 3) ∧ loByte t.ver.acc = fbRead s (s.len - 2))
      ∧ (t.ver.verifyOk = true ↔ t.ver.acc = t.ver.chkRx)

/-- R82: for `LEN >= 6` BODY sets the byte index to 2, and from there the body is the `LEN - 5` bytes at `2..LEN-4`. -/
def Obligations.BodyStepSelectsInterior : Prop :=
  ∀ s : State, s.wasReset = true → 6 ≤ s.len →
    ∃ t, exec .verifyBody s = .next t ∧ t = { s with work := { s.work with i := 2 } }
      ∧ bodyFrom t t.work.i = (List.range (s.len - 5)).map fun k => fbRead s (2 + k)

/-- R84: the 16-bit register with silent wrap reaches `(65536 - sum) mod 65536` for every byte sequence, in any order of
its bytes. -/
def Obligations.WrappingAccumulatorEqualsWideSum : Prop :=
  ∀ body : List Byte,
    ((accumulate body).toNat : Int) = (65536 - ((body.map BitVec.toNat).sum : Int)) % 65536
    ∧ accumulate body = chkOf body
    ∧ ∀ other : List Byte, body.Perm other → accumulate other = accumulate body

/-- R84 at the machine: ACCUMULATE sums from the byte index to `LEN-4`, leaves the value in the working accumulator and
in ACC and the index at `LEN-3`, and changes nothing else. -/
def Obligations.AccumulateStepWritesAcc : Prop :=
  ∀ s : State, s.wasReset = true → 6 ≤ s.len →
    ∃ crc : Word16, exec .verifyAccumulate s = .next
        { s with ver := { s.ver with acc := crc }, work := { s.work with acc := crc, i := s.len - 3 } }
      ∧ (crc.toNat : Int)
          = (65536 - (((List.range (s.len - 3 - s.work.i)).map fun k => (fbRead s (s.work.i + k)).toNat).sum : Int))
            % 65536

/-- R85: ENCODE splits the accumulator most significant byte first. -/
def Obligations.EncodeStepSplitsBigEndian : Prop :=
  ∀ s : State, s.wasReset = true → 6 ≤ s.len →
    ∃ hi lo : Byte, exec .verifyEncode s = .next { s with work := { s.work with hi := hi, lo := lo } }
      ∧ hi.toNat = s.work.acc.toNat / 256 ∧ lo.toNat = s.work.acc.toNat % 256

/-- R86, R63: FETCH writes CHK_RX from the two bytes before the end marker, found from LEN, big-endian. -/
def Obligations.FetchStepReadsTrailer : Prop :=
  ∀ s : State, s.wasReset = true → 6 ≤ s.len →
    ∃ c : Word16, exec .verifyFetch s = .next { s with ver := { s.ver with chkRx := c } }
      ∧ c.toNat = (fbRead s (s.len - 3)).toNat * 256 + (fbRead s (s.len - 2)).toNat

/-- R87: COMPARE writes VERIFY_OK from the encoded and the received bytes. -/
def Obligations.CompareStepWritesVerifyOk : Prop :=
  ∀ s : State, s.wasReset = true → 6 ≤ s.len →
    exec .verifyCompare s = .next
      { s with ver := { s.ver with
          verifyOk := decide (s.work.hi = fbRead s (s.len - 3) ∧ s.work.lo = fbRead s (s.len - 2)) } }

/-- R80 with R81 to R87: on every state the six internal steps in their order leave exactly the state VERIFY leaves, but
for the working registers: the 16-bit register of the hardware refines the source's wide formula. The rows as steps of
their own, and where the pseudocode is cut into them, are the model's (log 12, log 13). -/
def Obligations.VerifyStepsRefineVerify : Prop :=
  ∀ s : State, s.wasReset = true →
    ∃ t w, exec .verify s = .next t
      ∧ execAll [.verifyGuard, .verifyBody, .verifyAccumulate, .verifyEncode, .verifyFetch, .verifyCompare] s
          = .next { t with work := w }

/-- R88: VERIFY's result depends on LEN and the bytes at `2..LEN-2` alone, so FB[0], FB[1] and FB[LEN-1] never change
it. -/
def Obligations.VerifyIgnoresMarkersAndCommand : Prop :=
  ∀ s t : State, s.wasReset = true → t.wasReset = true → s.len = t.len →
    (∀ a, 2 ≤ a → a + 2 ≤ s.len → fbRead s a = fbRead t a) →
    ∃ s' t', exec .verify s = .next s' ∧ exec .verify t = .next t' ∧ s'.ver = t'.ver

/-- R91: overwriting the checksum bytes with the value recomputed from the body makes VERIFY true, and does not change
that value; below 6 bytes VERIFY is false whatever is written. -/
def Obligations.PatchedChecksumVerifies : Prop :=
  ∀ s : State, s.wasReset = true → s.len ≤ s.cfg.fbSize →
    (6 ≤ s.len →
      ∃ t, execAll [.hostWriteFb (s.len - 3) (hiByte (chkOf (bodyOf (frameOf s)))),
            .hostWriteFb (s.len - 2) (loByte (chkOf (bodyOf (frameOf s)))), .verify] s = .next t
        ∧ t.ver.verifyOk = true ∧ t.ver.acc = chkOf (bodyOf (frameOf s)))
    ∧ (s.len < 6 → ∃ t, exec .verify s = .next t ∧ t.ver.verifyOk = false)

/-- R89 (a), (c): a body of zero bytes has the checksum 0x0000 and verifies iff its checksum bytes are 00 00, never as
01 00; in a canonical frame the sum of the body is at most 65535, so that ACC is 65536 less the sum, or 0x0000 for the
sum 0. -/
def Obligations.ChecksumCornerCases : Prop :=
  ∀ s : State, s.wasReset = true → 6 ≤ s.len →
    ((∀ a, 2 ≤ a → a + 4 ≤ s.len → fbRead s a = 0) →
      ∃ t, exec .verify s = .next t ∧ t.ver.acc = 0
        ∧ (t.ver.verifyOk = true ↔ fbRead s (s.len - 3) = 0 ∧ fbRead s (s.len - 2) = 0))
    ∧ (s.len = (fbRead s 3).toNat + 7 →
      ((List.range (s.len - 5)).map fun k => (fbRead s (2 + k)).toNat).sum ≤ 65535
      ∧ ∃ t, exec .verify s = .next t
        ∧ (t.ver.acc.toNat + ((List.range (s.len - 5)).map fun k => (fbRead s (2 + k)).toNat).sum = 65536
          ∨ (t.ver.acc = 0 ∧ ((List.range (s.len - 5)).map fun k => (fbRead s (2 + k)).toNat).sum = 0)))

/-! ## PARSE -/

/-- R101: below 7 bytes PARSE, and its LENCHECK step, record TooShort; from 7 bytes on LENCHECK lets pass. -/
def Obligations.ParseTooShortBelowSeven : Prop :=
  ∀ s : State, s.wasReset = true →
    (s.len < 7 → exec .parse s = .next { s with pkt := ⟨2, false, false, 0, 0, 0⟩ }
      ∧ exec .parseLencheck s = .next { s with pkt := ⟨2, false, false, 0, 0, 0⟩ })
    ∧ (7 ≤ s.len → exec .parseLencheck s = .next s)

/-- R102 (with R103): from 7 bytes on a wrong first or last byte is BadMarker, each failed marker flagged, no packet. -/
def Obligations.ParseBadMarkerNamesTheMarkers : Prop :=
  ∀ s : State, s.wasReset = true → 7 ≤ s.len → (fbRead s 0 ≠ 0xDD ∨ fbRead s (s.len - 1) ≠ 0x77) →
    exec .parse s = .next
      { s with pkt := ⟨3, decide (fbRead s 0 ≠ 0xDD), decide (fbRead s (s.len - 1) ≠ 0x77), 0, 0, 0⟩ }

/-- R105: with both markers correct, `LEN < N + 7` on unbounded integers is TruncatedData and no packet; from `N + 7` bytes
on PARSE succeeds, its data never shorter than N. -/
def Obligations.ParseTruncatedBelowDeclaredLength : Prop :=
  ∀ s : State, s.wasReset = true → 7 ≤ s.len → fbRead s 0 = 0xDD → fbRead s (s.len - 1) = 0x77 →
    (s.len < (fbRead s 3).toNat + 7 → exec .parse s = .next { s with pkt := ⟨4, false, false, 0, 0, 0⟩ })
    ∧ ((fbRead s 3).toNat + 7 ≤ s.len →
        ∃ t, exec .parse s = .next t ∧ t.pkt.parseSt = 1 ∧ (dataView t).length = (fbRead s 3).toNat)

/-- R107, R104: otherwise PARSE writes the header bytes unchanged and OK, and the DATA view is the N bytes at
`4..4+N-1`. -/
def Obligations.ParseAcceptsPacket : Prop :=
  ∀ s : State, s.wasReset = true → 7 ≤ s.len → fbRead s 0 = 0xDD → fbRead s (s.len - 1) = 0x77 →
    (fbRead s 3).toNat + 7 ≤ s.len →
    ∃ t, exec .parse s = .next t
      ∧ t = { s with pkt := ⟨1, false, false, fbRead s 1, fbRead s 2, fbRead s 3⟩ }
      ∧ dataView t = (List.range (fbRead s 3).toNat).map fun j => fbRead s (4 + j)

/-- R22: after PARSE the DATA view has exactly DLEN elements, `DATA[j] = FB[4+j]`; with PARSE_ST = 1 every one lies at
an offset `<= LEN - 4`, below the checksum and the end marker; otherwise it is empty. -/
def Obligations.DataViewStaysBelowChecksum : Prop :=
  ∀ s : State, s.wasReset = true →
    ∃ t, exec .parse s = .next t ∧ (dataView t).length = t.pkt.dlen.toNat
      ∧ (∀ j, j < t.pkt.dlen.toNat → (dataView t)[j]? = some (fbRead s (4 + j)) ∧ 4 + j + 4 ≤ s.len)
      ∧ (t.pkt.parseSt ≠ 1 → dataView t = [])

/-- R108 (with R17, R18): PARSE ends in one of the codes 1 to 4; the marker flags are those of the markers when
PARSE_ST = 3, with at least one 1, and 0 otherwise; unless PARSE_ST = 1 the packet registers are 0x00 and the DATA view is
empty. -/
def Obligations.ParseOutcomeIsLegal : Prop :=
  ∀ s : State, s.wasReset = true →
    ∃ t, exec .parse s = .next t ∧ t = { s with pkt := t.pkt }
      ∧ (t.pkt.parseSt = 1 ∨ t.pkt.parseSt = 2 ∨ t.pkt.parseSt = 3 ∨ t.pkt.parseSt = 4)
      ∧ (t.pkt.parseSt = 3 → (t.pkt.badStart = true ↔ fbRead s 0 ≠ 0xDD)
          ∧ (t.pkt.badEnd = true ↔ fbRead s (s.len - 1) ≠ 0x77)
          ∧ (t.pkt.badStart = true ∨ t.pkt.badEnd = true))
      ∧ (t.pkt.parseSt ≠ 3 → t.pkt.badStart = false ∧ t.pkt.badEnd = false)
      ∧ (t.pkt.parseSt ≠ 1 → t.pkt.command = 0 ∧ t.pkt.pktStatus = 0 ∧ t.pkt.dlen = 0 ∧ dataView t = [])

/-- R109, R143: the cause that PARSE reports is the first in the order TooShort, BadMarker, TruncatedData. -/
def Obligations.ParseReportsFirstCause : Prop :=
  ∀ s : State, s.wasReset = true →
    ∃ t, exec .parse s = .next t
      ∧ (t.pkt.parseSt = 2 ↔ s.len < 7)
      ∧ (t.pkt.parseSt = 3 ↔ 7 ≤ s.len ∧ ¬ (fbRead s 0 = 0xDD ∧ fbRead s (s.len - 1) = 0x77))
      ∧ (t.pkt.parseSt = 4 ↔ 7 ≤ s.len ∧ fbRead s 0 = 0xDD ∧ fbRead s (s.len - 1) = 0x77
          ∧ s.len < (fbRead s 3).toNat + 7)
      ∧ (t.pkt.parseSt = 1 ↔ 7 ≤ s.len ∧ fbRead s 0 = 0xDD ∧ fbRead s (s.len - 1) = 0x77
          ∧ (fbRead s 3).toNat + 7 ≤ s.len)

/-- R61: the HDR and TRL masks pass iff the first byte is 0xDD and the last 0x77. -/
def Obligations.PatternIsTheTwoMarkers : Prop :=
  ∀ s : State, 7 ≤ s.len →
    (matchesPattern (frameOf s) = true ↔ fbRead s 0 = 0xDD ∧ fbRead s (s.len - 1) = 0x77)

/-- R64: a frame of at least 7 bytes is in exactly one class by `LEN` against `N + 7`; with both markers correct PARSE
accepts canonical and slack frames and fails with TruncatedData on truncated ones. -/
def Obligations.LengthClassDecidesAcceptance : Prop :=
  ∀ s : State, s.wasReset = true → 7 ≤ s.len →
    (lengthClass (frameOf s) = .canonical ↔ s.len = (fbRead s 3).toNat + 7)
    ∧ (lengthClass (frameOf s) = .slack ↔ (fbRead s 3).toNat + 7 < s.len)
    ∧ (lengthClass (frameOf s) = .truncated ↔ s.len < (fbRead s 3).toNat + 7)
    ∧ (fbRead s 0 = 0xDD → fbRead s (s.len - 1) = 0x77 →
        ∃ t, exec .parse s = .next t
          ∧ t.pkt.parseSt = if lengthClass (frameOf s) = .truncated then 4 else 1)

/-- After R102, R103: MARKERS records BadMarker, MARKER_ID the failed markers; with a frame below 7 bytes or both markers
correct neither changes anything. That MARKERS alone writes code 3 with the flags and packet registers zero and MARKER_ID
the flags is the model's cut of the pseudocode (log 13), and that both do nothing where they are not reached is its
choice (log 12). -/
def Obligations.MarkerStepsRecordBadMarker : Prop :=
  ∀ s : State, s.wasReset = true →
    (7 ≤ s.len → (fbRead s 0 ≠ 0xDD ∨ fbRead s (s.len - 1) ≠ 0x77) →
      exec .parseMarkers s = .next { s with pkt := ⟨3, false, false, 0, 0, 0⟩ }
      ∧ exec .parseMarkerId s = .next
          { s with pkt := { s.pkt with badStart := decide (fbRead s 0 ≠ 0xDD),
                                       badEnd := decide (fbRead s (s.len - 1) ≠ 0x77) } })
    ∧ ((s.len < 7 ∨ (fbRead s 0 = 0xDD ∧ fbRead s (s.len - 1) = 0x77)) →
      exec .parseMarkers s = .next s ∧ exec .parseMarkerId s = .next s)

/-- After R104, R109: HEADER latches the three bytes when the markers are correct; with a frame below 7 bytes or a wrong
marker it and the steps behind it do nothing. That HEADER latches command, status and N in working registers is the
model's cut of the pseudocode, which takes only N there (log 13), and that a step not reached does nothing is its choice
(log 12). -/
def Obligations.HeaderStepLatchesFields : Prop :=
  ∀ s : State, s.wasReset = true →
    (7 ≤ s.len → fbRead s 0 = 0xDD → fbRead s (s.len - 1) = 0x77 →
      exec .parseHeader s = .next
        { s with work := { s.work with command := fbRead s 1, status := fbRead s 2, n := fbRead s 3 } })
    ∧ ((s.len < 7 ∨ fbRead s 0 ≠ 0xDD ∨ fbRead s (s.len - 1) ≠ 0x77) →
      exec .parseHeader s = .next s ∧ exec .parseDlencheck s = .next s ∧ exec .parseData s = .next s)

/-- R105, R113, R106, R107: with N the byte HEADER latched, DLENCHECK compares LEN with N + 7 without wrap and records
TruncatedData, DATA then doing nothing, or lets pass, and DATA then delivers the latched fields with OK and the view of N
bytes from offset 4. That DATA performs the success write is the model's reading (log 13). -/
def Obligations.LengthAndDataStepsDecideThePacket : Prop :=
  ∀ s : State, s.wasReset = true → 7 ≤ s.len → fbRead s 0 = 0xDD → fbRead s (s.len - 1) = 0x77 →
    (s.len < s.work.n.toNat + 7 →
      exec .parseDlencheck s = .next { s with pkt := ⟨4, false, false, 0, 0, 0⟩ } ∧ exec .parseData s = .next s)
    ∧ (s.work.n.toNat + 7 ≤ s.len → exec .parseDlencheck s = .next s
      ∧ ∃ t, exec .parseData s = .next t
        ∧ t = { s with pkt := ⟨1, false, false, s.work.command, s.work.status, s.work.n⟩ }
        ∧ dataView t = (List.range s.work.n.toNat).map fun j => fbRead s (4 + j))

/-- R100 with R101 to R109: on every state the six internal steps in their order leave exactly the state PARSE leaves,
but for the working registers. The rows as steps of their own, and where the pseudocode is cut into them, are the model's
(log 12, log 13). -/
def Obligations.ParseStepsRefineParse : Prop :=
  ∀ s : State, s.wasReset = true →
    ∃ t w, exec .parse s = .next t
      ∧ execAll [.parseLencheck, .parseMarkers, .parseMarkerId, .parseHeader, .parseDlencheck, .parseData] s
          = .next { t with work := w }

/-! ## The two halves together -/

/-- R123, R122: VERIFY and PARSE write disjoint registers and read none of the other's, so their order is immaterial,
and neither result changes with the other's registers. -/
def Obligations.VerifyAndParseAreIndependent : Prop :=
  ∀ (s : State) (v : VerifyRegs) (p : ParseRegs), s.wasReset = true →
    execAll [.verify, .parse] s = execAll [.parse, .verify] s
    ∧ (∃ t t', exec .verify s = .next t ∧ t.pkt = s.pkt
        ∧ exec .verify { s with pkt := p } = .next t' ∧ t'.ver = t.ver)
    ∧ (∃ t t', exec .parse s = .next t ∧ t.ver = s.ver
        ∧ exec .parse { s with ver := v } = .next t' ∧ t'.pkt = t.pkt)

/-- R123: all eight combinations of VERIFY_OK and PARSE_ST occur; `LEN < 6` forces VERIFY_OK = 0 and PARSE_ST = 2, and
`LEN = 6` forces PARSE_ST = 2. -/
def Obligations.AllResultCombinationsOccur : Prop :=
  (∀ ok : Bool, ∀ code ∈ [(1 : BitVec 3), 2, 3, 4],
    ∃ f : List Byte, f.length ≤ 511 ∧ verifyFrame f = ok ∧ (parseRegsOf f).parseSt = code)
  ∧ ∀ f : List Byte, (f.length < 6 → verifyFrame f = false ∧ (parseRegsOf f).parseSt = 2)
      ∧ (f.length = 6 → (parseRegsOf f).parseSt = 2)

/-- R149, R42, R128: for every FB and LEN, and whatever the registers hold, no row of the core, START or reset stops,
and none writes FB or, reset apart, LEN. -/
def Obligations.CoreNeverStopsNorWritesTheFrame : Prop :=
  ∀ (i : Instr) (s : State), s.wasReset = true →
    i ∈ [Instr.run, .verify, .parse, .complete, .hostStart, .verifyGuard, .verifyBody, .verifyAccumulate,
      .verifyEncode, .verifyFetch, .verifyCompare, .parseLencheck, .parseMarkers, .parseMarkerId, .parseHeader,
      .parseDlencheck, .parseData, .hostReset] →
    ∃ t, exec i s = .next t ∧ t.fb = s.fb ∧ (i ≠ .hostReset → t.len = s.len)

/-! ## Host moves -/

/-- R128 h1, h2: HOST.WRITE_FB stores one byte and every other offset reads as before; HOST.WRITE_LEN sets LEN; nothing
else changes but, while BUSY = 1, the mark of the hazard (R163). -/
def Obligations.HostWritesStoreTheirOperand : Prop :=
  ∀ s : State, s.wasReset = true →
    (∀ (a : Nat) (v : Byte), a < s.cfg.fbSize →
      ∃ t, exec (.hostWriteFb a v) s = .next t ∧ t = { s with fb := t.fb, hazard := s.hazard || s.busy }
        ∧ fbRead t a = v ∧ ∀ b, b ≠ a → fbRead t b = fbRead s b)
    ∧ ∀ n, n ≤ s.cfg.fbSize →
        exec (.hostWriteLen n) s = .next { s with len := n, hazard := s.hazard || s.busy }

/-- R128 h4, R127: HOST.READ hands the port's value to the host and changes nothing else. That the value goes to
`readout` is the model's choice (log 11), and so is the extent of DATA after a hazard, DLEN alone (log 18). -/
def Obligations.ReadHandsOverTheValue : Prop :=
  ∀ s : State, s.wasReset = true →
    exec (.hostRead .len) s = .next { s with readout := some s.len }
    ∧ exec (.hostRead .busy) s = .next { s with readout := some s.busy.toNat }
    ∧ exec (.hostRead .done) s = .next { s with readout := some s.done.toNat }
    ∧ exec (.hostRead .verifyOk) s = .next { s with readout := some s.ver.verifyOk.toNat }
    ∧ exec (.hostRead .acc) s = .next { s with readout := some s.ver.acc.toNat }
    ∧ exec (.hostRead .chkRx) s = .next { s with readout := some s.ver.chkRx.toNat }
    ∧ exec (.hostRead .parseSt) s = .next { s with readout := some s.pkt.parseSt.toNat }
    ∧ exec (.hostRead .badStart) s = .next { s with readout := some s.pkt.badStart.toNat }
    ∧ exec (.hostRead .badEnd) s = .next { s with readout := some s.pkt.badEnd.toNat }
    ∧ exec (.hostRead .command) s = .next { s with readout := some s.pkt.command.toNat }
    ∧ exec (.hostRead .pktStatus) s = .next { s with readout := some s.pkt.pktStatus.toNat }
    ∧ exec (.hostRead .dlen) s = .next { s with readout := some s.pkt.dlen.toNat }
    ∧ (∀ a, a < s.cfg.fbSize → exec (.hostRead (.fb a)) s = .next { s with readout := some (fbRead s a).toNat })
    ∧ (∀ j, j < s.pkt.dlen.toNat →
        exec (.hostRead (.data j)) s = .next { s with readout := some (fbRead s (4 + j)).toNat })

/-- R127: results hold from completion until the next accepted START or reset: reads, writes of FB and LEN, a COMPLETE
row and a CHK leave every result register and DONE. -/
def Obligations.ResultsHeldUntilNextStart : Prop :=
  ∀ (i : Instr) (s : State), s.wasReset = true → s.busy = false → s.done = true →
    ((i.quiet s.cfg = true ∧ i ≠ .hostStart) ∨ i.writes s.cfg = true ∨ i = .complete) →
    ∃ t, exec i s = .next t ∧ t.ver = s.ver ∧ t.pkt = s.pkt ∧ t.done = true ∧ t.busy = false

/-- A host operand that names nothing that exists stops by name: an offset or a length beyond FB_SIZE (R12, R40, R128),
an element of DATA beyond DLEN (R22; after a hazard log 18), FRAME with more than 255 data bytes (R70). The stops are
the model's (log 14). -/
def Obligations.MissingTargetsStopByName : Prop :=
  ∀ s : State, s.wasReset = true →
    (∀ a v, s.cfg.fbSize ≤ a → exec (.hostWriteFb a v) s = .fault (.noSuchOffset a))
    ∧ (∀ n, s.cfg.fbSize < n → exec (.hostWriteLen n) s = .fault (.lengthTooWide n))
    ∧ (∀ a, s.cfg.fbSize ≤ a → exec (.hostRead (.fb a)) s = .fault (.noSuchOffset a))
    ∧ (∀ j, s.pkt.dlen.toNat ≤ j → exec (.hostRead (.data j)) s = .fault (.noSuchData j))
    ∧ (∀ cmd status data slack, 255 < data.length →
        exec (.frame cmd status data slack) s = .refused (.frameDataTooLong data.length))
    ∧ (∀ cmd status data slack, data.length ≤ 255 → s.cfg.fbSize < data.length + slack.length + 7 →
        exec (.frame cmd status data slack) s = .fault (.lengthTooWide (data.length + slack.length + 7)))

/-! ## Frames -/

/-- R70: CHK(body) is the 16-bit value `(65536 - sum(body)) mod 65536`; that it is handed over in `chkValue` is the
model's choice (log 10). -/
def Obligations.ChkIsTheNegatedSum : Prop :=
  ∀ (body : List Byte) (s : State), ∃ c : Word16, exec (.chk body) s = .next { s with chkValue := some c }
    ∧ (c.toNat : Int) = (65536 - ((body.map BitVec.toNat).sum : Int)) % 65536

/-- R70: FRAME writes its expansion as the frame: the bytes in the rule's order, LEN their number, every offset beyond
as before. That the expansion is written into FB and LEN is the model's choice (log 10). -/
def Obligations.FrameWritesItsExpansion : Prop :=
  ∀ (cmd status : Byte) (data slack : List Byte) (s : State), s.wasReset = true → data.length ≤ 255 →
    data.length + slack.length + 7 ≤ s.cfg.fbSize →
    ∃ t, exec (.frame cmd status data slack) s = .next t
      ∧ t = { s with fb := t.fb, len := data.length + slack.length + 7, hazard := s.hazard || s.busy }
      ∧ frameOf t = [0xDD, cmd, status, BitVec.ofNat 8 data.length] ++ data ++ slack
          ++ [hiByte (chkOf ([status, BitVec.ofNat 8 data.length] ++ data ++ slack)),
              loByte (chkOf ([status, BitVec.ofNat 8 data.length] ++ data ++ slack)), 0x77]
      ∧ ∀ b, data.length + slack.length + 7 ≤ b → fbRead t b = fbRead s b

/-- R111 (c), R70: a frame built by FRAME, slack included, verifies and parses to the packet it was built from. FRAME is
no operation of the core (R70): that its row writes the expansion into FB and LEN is the model's choice (log 10). -/
def Obligations.FrameRoundTripsThroughRun : Prop :=
  ∀ (cmd status : Byte) (data slack : List Byte) (s : State), s.wasReset = true → s.busy = false →
    data.length ≤ 255 → data.length + slack.length + 7 ≤ s.cfg.fbSize →
    ∃ t, execAll [.frame cmd status data slack, .run] s = .next t
      ∧ t.busy = false ∧ t.done = true ∧ t.ver.verifyOk = true ∧ t.ver.acc = t.ver.chkRx
      ∧ t.pkt = ⟨1, false, false, cmd, status, BitVec.ofNat 8 data.length⟩
      ∧ t.pkt.dlen.toNat = data.length ∧ dataView t = data

/-- R68: the literal request frame, presented to an idle core, verifies and parses to command 0xA5, status 0x05, length
0 and empty data; written while BUSY = 1 it is a hazard (R163), its START is ignored (R125) and the result registers
stay. Bytes beyond it stay. That the row writes the frame and RUNs it is the model's reading (log 9). -/
def Obligations.ReqHwinfoVerifiesAndParses : Prop :=
  ∀ s : State, s.wasReset = true → s.cfg.Wf →
    ∃ t, exec .reqHwinfo s = .next t
      ∧ frameOf t = [0xDD, 0xA5, 0x05, 0x00, 0xFF, 0xFB, 0x77]
      ∧ (∀ b, 7 ≤ b → fbRead t b = fbRead s b)
      ∧ (s.busy = false →
          t = { s with fb := t.fb, len := 7, ver := ⟨true, 0xFFFB, 0xFFFB⟩,
                       pkt := ⟨1, false, false, 0xA5, 0x05, 0x00⟩, busy := false, done := true, work := t.work,
                       hazard := false }
          ∧ dataView t = [])
      ∧ (s.busy = true → t = { s with fb := t.fb, len := 7, hazard := true })

/-- R60, R63: splitting the bytes of a frame gives back every field it was built from, for every command, status,
data of 0 to 255 bytes, slack and checksum. -/
def Obligations.DecodeOfEncodeIsTheFrame : Prop :=
  ∀ x : FrameFields, x.Wf → decodeFrame (encodeFrame x) = .ok x

/-- R66, R68: the bytes of a row decode to REQ_HWINFO exactly when they are its literal frame and to PARSE, whose
pattern they match, otherwise. -/
def Obligations.EncodedRowsDecode : Prop :=
  ∀ (c : Config) (i : Instr) (bytes : List Byte), encode i = some bytes → i.wellFormed c = true →
    decode bytes = .ok (if bytes = reqHwinfoBytes then .reqHwinfo else .parse)
    ∧ matchesPattern bytes = true

/-- After R60, R68: a few words written out from the spec: the literal request frame, the source's round-trip frame (S2),
and frames that no row takes, each named: wrong end marker (P7), declared length too long (P10), 6 bytes (P2). That a
table word is laid out most significant byte first, and which row a frame selects, is the model's reading (log 6). -/
def Obligations.SpecWordsDecode : Prop :=
  decodeTableWord 56 0xDDA50500FFFB77 = some .reqHwinfo
  ∧ decodeTableWord 80 0xDD010003414243FF3777 = some .parse
  ∧ decode [0xDD, 0x01, 0x00, 0x03, 0x41, 0x42, 0x43, 0xFF, 0x37, 0x77] = .ok .parse
  ∧ decode [0xDD, 0x01, 0x00, 0x03, 0x41, 0x42, 0x43, 0xFF, 0x37, 0x76] = .error (.badMarker false true)
  ∧ decode [0xDD, 0x01, 0x00, 0x04, 0x41, 0x42, 0x43, 0xFF, 0x36, 0x77] = .error .truncatedData
  ∧ decode [0xDD, 0x03, 0x00, 0x00, 0x00, 0x77] = .error .tooShort

/-! ## The step and the invariants -/

/-- A step executes the row at the head of the script in the state without it (log 4); on the bytes of a frame that the
decoder reads as a row it writes them into FB and LEN and executes that row (log 6); and so from `withFetchWord`. -/
def Obligations.StepExecutesTheDecodedRow : Prop :=
  (∀ (s : State) (i : Instr) (rest : List Slot), s.script = .op i :: rest → step s = exec i { s with script := rest })
  ∧ (∀ (s : State) (bytes : List Byte) (rest : List Slot) (i : Instr), s.wasReset = true →
    s.script = .code bytes :: rest → bytes.length ≤ s.cfg.fbSize → decode bytes = .ok i →
    ∃ t, step s = exec i t ∧ frameOf t = bytes ∧ (∀ b, bytes.length ≤ b → fbRead t b = fbRead s b)
      ∧ t = { s with script := rest, fb := t.fb, len := bytes.length, hazard := s.hazard || s.busy })
  ∧ ∀ (s : State) (nbits w : Nat) (i : Instr), s.wasReset = true → nbits / 8 ≤ s.cfg.fbSize →
      decodeTableWord nbits w = some i →
      ∃ t, step (s.withFetchWord nbits w) = exec i t ∧ t.len = nbits / 8 ∧ t.script = s.script

/-- R142: a step on bytes that the decoder rejects as a frame writes them and records the rejection as PARSE's outcome
(log 6). -/
def Obligations.StepRecordsRejectedFrame : Prop :=
  ∀ (s : State) (bytes : List Byte) (rest : List Slot) (e : FramingError), s.wasReset = true →
    s.script = .code bytes :: rest → bytes.length ≤ s.cfg.fbSize → decode bytes = .error e →
    ∃ t, step s = .next t ∧ frameOf t = bytes ∧ t.script = rest ∧ t.ver = s.ver
      ∧ t.pkt = (match e with
          | .tooShort => ⟨2, false, false, 0, 0, 0⟩
          | .badMarker bs be => ⟨3, bs, be, 0, 0, 0⟩
          | .truncatedData => ⟨4, false, false, 0, 0, 0⟩)

/-- R128: with nothing left for the host to do only the core can move: COMPLETE while BUSY = 1, nothing while BUSY = 0
(log 5). -/
def Obligations.StepWithEmptyScriptIsTheCores : Prop :=
  ∀ s : State, s.wasReset = true → s.script = [] →
    step s = exec .complete s ∧ (s.busy = false → step s = .next s)

/-- R7, R12, R13, R28, R40, R121, R127: both invariants hold after reset. -/
def Obligations.ResetMeetsBothInvariants : Prop := State.reset.Inv ∧ State.reset.Coherent

/-- R7, R12, R13, R40: every step, on any script, keeps it: LEN_W at least 9, LEN a legal length, FB canonical and inside
the buffer, never BUSY and DONE together. -/
def Obligations.StepKeepsStructuralRules : Prop := ∀ s t : State, s.Inv → step s = .next t → t.Inv ∧ t.cfg = s.cfg

/-- R13, R18, R108, R121, R127, R163: every step of the machine keeps it: without DONE the result registers hold their
reset values, with DONE and no hazard they are those of one completed operation. -/
def Obligations.StepKeepsPhaseRules : Prop := ∀ s t : State, s.Coherent → step s = .next t → t.Coherent
end

