-- ==== Sys2Proof/Laws/Frame.lean ====
section
/-! SUPPORT. Laws of the functional level: byte order, the checksum as a number, and the parts of an encoded frame. -/

namespace Sys2Proof

/-! Byte order. -/

theorem beWord_toNat (a b : Byte) : (beWord a b).toNat = a.toNat * 256 + b.toNat := by
  unfold beWord
  rw [BitVec.toNat_append]
  have := b.isLt
  rw [← Nat.shiftLeft_add_eq_or_of_lt (by omega)]
  simp [Nat.shiftLeft_eq]

theorem hiByte_toNat (v : Word16) : (hiByte v).toNat = v.toNat / 256 := by
  have := v.isLt
  simp [hiByte, Nat.shiftRight_eq_div_pow]
  omega

theorem loByte_toNat (v : Word16) : (loByte v).toNat = v.toNat % 256 := by simp [loByte]

/-- The two bytes of a word are a pair exactly when the word is that pair's. -/
theorem bytes_eq_iff (v : Word16) (a b : Byte) : (hiByte v = a ∧ loByte v = b) ↔ v = beWord a b := by
  have h1 := hiByte_toNat v
  have h2 := loByte_toNat v
  have h3 := beWord_toNat a b
  have := a.isLt
  have := b.isLt
  constructor
  · rintro ⟨rfl, rfl⟩
    apply BitVec.eq_of_toNat_eq
    omega
  · intro h
    rw [h] at h1 h2 ⊢
    constructor <;> apply BitVec.eq_of_toNat_eq <;> omega

/-! The checksum. -/

theorem sumBytes_map_range (f : Nat → Byte) (n : Nat) :
    sumBytes ((List.range n).map f) = ((List.range n).map fun k => (f k).toNat).sum := by
  simp [sumBytes, List.map_map, Function.comp_def]

/-- The checksum as an integer. -/
theorem chkOf_toNat (b : List Byte) : ((chkOf b).toNat : Int) = (65536 - (sumBytes b : Int)) % 65536 := by
  unfold chkOf checksumBase
  rw [BitVec.toNat_ofInt]
  norm_num
  omega

/-! The parts of an encoded frame. -/

theorem encodeFrame_length (x : FrameFields) : (encodeFrame x).length = x.data.length + x.slack.length + 7 := by
  simp [encodeFrame]
  omega

theorem frameBytes_length (cmd status : Byte) (data slack : List Byte) :
    (frameBytes cmd status data slack).length = data.length + slack.length + 7 := encodeFrame_length _

/-- The trailer stands behind header, data and slack. -/
theorem byteAt_encodeFrame_trailer (x : FrameFields) (k : Nat) :
    byteAt (encodeFrame x) (x.data.length + x.slack.length + 4 + k)
      = byteAt [hiByte x.checksum, loByte x.checksum, endMarker] k := by
  have h : x.data.length + x.slack.length + 4 + k
      = ([startMarker, x.command, x.status, BitVec.ofNat 8 x.data.length] ++ x.data ++ x.slack).length + k := by simp
  unfold byteAt encodeFrame
  rw [h, List.getD_eq_getElem?_getD, List.getElem?_append_right (by omega)]
  simp

theorem tableBytes_length (k w : Nat) : (tableBytes k w).length = k := by
  induction k with
  | zero => rfl
  | succ k ih => simp [tableBytes, ih]

/-- The decoder rejects with PARSE's own reason. -/
theorem parseFrame_of_decode_error {f : List Byte} {e : FramingError} (h : decode f = .error e) :
    parseFrame f = .error e := by
  unfold decode at h
  split at h
  · simp at h
  · cases hp : parseFrame f <;> rw [hp] at h <;> simp at h
    rw [h]

end Sys2Proof
end

