-- ==== Sys2Proof/Laws/State.lean ====
section
/-! SUPPORT. What each register update does to each field of State: one lemma per field, true by unfolding the update
once, so that no later proof unfolds it. -/

namespace Sys2Proof.Machine

variable (s : State)

@[simp] theorem storeByte_fb (a : Nat) (v : Byte) : (storeByte a v s).fb = Memory.store s.fb a v := rfl
@[simp] theorem storeByte_len (a : Nat) (v : Byte) : (storeByte a v s).len = s.len := rfl
@[simp] theorem storeByte_busy (a : Nat) (v : Byte) : (storeByte a v s).busy = s.busy := rfl
@[simp] theorem storeByte_done (a : Nat) (v : Byte) : (storeByte a v s).done = s.done := rfl
@[simp] theorem storeByte_ver (a : Nat) (v : Byte) : (storeByte a v s).ver = s.ver := rfl
@[simp] theorem storeByte_pkt (a : Nat) (v : Byte) : (storeByte a v s).pkt = s.pkt := rfl
@[simp] theorem storeByte_work (a : Nat) (v : Byte) : (storeByte a v s).work = s.work := rfl
@[simp] theorem storeByte_cfg (a : Nat) (v : Byte) : (storeByte a v s).cfg = s.cfg := rfl
@[simp] theorem storeByte_wasReset (a : Nat) (v : Byte) : (storeByte a v s).wasReset = s.wasReset := rfl
@[simp] theorem storeByte_hazard (a : Nat) (v : Byte) : (storeByte a v s).hazard = (s.hazard || s.busy) := rfl
@[simp] theorem storeByte_draws (a : Nat) (v : Byte) : (storeByte a v s).draws = s.draws := rfl
@[simp] theorem storeByte_script (a : Nat) (v : Byte) : (storeByte a v s).script = s.script := rfl
@[simp] theorem storeByte_readout (a : Nat) (v : Byte) : (storeByte a v s).readout = s.readout := rfl
@[simp] theorem storeByte_chkValue (a : Nat) (v : Byte) : (storeByte a v s).chkValue = s.chkValue := rfl

@[simp] theorem setLen_fb (n : Nat) : (setLen n s).fb = s.fb := rfl
@[simp] theorem setLen_len (n : Nat) : (setLen n s).len = n := rfl
@[simp] theorem setLen_busy (n : Nat) : (setLen n s).busy = s.busy := rfl
@[simp] theorem setLen_done (n : Nat) : (setLen n s).done = s.done := rfl
@[simp] theorem setLen_ver (n : Nat) : (setLen n s).ver = s.ver := rfl
@[simp] theorem setLen_pkt (n : Nat) : (setLen n s).pkt = s.pkt := rfl
@[simp] theorem setLen_work (n : Nat) : (setLen n s).work = s.work := rfl
@[simp] theorem setLen_cfg (n : Nat) : (setLen n s).cfg = s.cfg := rfl
@[simp] theorem setLen_wasReset (n : Nat) : (setLen n s).wasReset = s.wasReset := rfl
@[simp] theorem setLen_hazard (n : Nat) : (setLen n s).hazard = (s.hazard || s.busy) := rfl
@[simp] theorem setLen_draws (n : Nat) : (setLen n s).draws = s.draws := rfl
@[simp] theorem setLen_script (n : Nat) : (setLen n s).script = s.script := rfl
@[simp] theorem setLen_readout (n : Nat) : (setLen n s).readout = s.readout := rfl
@[simp] theorem setLen_chkValue (n : Nat) : (setLen n s).chkValue = s.chkValue := rfl

@[simp] theorem setVer_fb (v : VerifyRegs) : (setVer v s).fb = s.fb := rfl
@[simp] theorem setVer_len (v : VerifyRegs) : (setVer v s).len = s.len := rfl
@[simp] theorem setVer_busy (v : VerifyRegs) : (setVer v s).busy = s.busy := rfl
@[simp] theorem setVer_done (v : VerifyRegs) : (setVer v s).done = s.done := rfl
@[simp] theorem setVer_ver (v : VerifyRegs) : (setVer v s).ver = v := rfl
@[simp] theorem setVer_pkt (v : VerifyRegs) : (setVer v s).pkt = s.pkt := rfl
@[simp] theorem setVer_work (v : VerifyRegs) : (setVer v s).work = s.work := rfl
@[simp] theorem setVer_cfg (v : VerifyRegs) : (setVer v s).cfg = s.cfg := rfl
@[simp] theorem setVer_wasReset (v : VerifyRegs) : (setVer v s).wasReset = s.wasReset := rfl
@[simp] theorem setVer_hazard (v : VerifyRegs) : (setVer v s).hazard = s.hazard := rfl
@[simp] theorem setVer_draws (v : VerifyRegs) : (setVer v s).draws = s.draws := rfl
@[simp] theorem setVer_script (v : VerifyRegs) : (setVer v s).script = s.script := rfl
@[simp] theorem setVer_readout (v : VerifyRegs) : (setVer v s).readout = s.readout := rfl
@[simp] theorem setVer_chkValue (v : VerifyRegs) : (setVer v s).chkValue = s.chkValue := rfl

@[simp] theorem setPkt_fb (p : ParseRegs) : (setPkt p s).fb = s.fb := rfl
@[simp] theorem setPkt_len (p : ParseRegs) : (setPkt p s).len = s.len := rfl
@[simp] theorem setPkt_busy (p : ParseRegs) : (setPkt p s).busy = s.busy := rfl
@[simp] theorem setPkt_done (p : ParseRegs) : (setPkt p s).done = s.done := rfl
@[simp] theorem setPkt_ver (p : ParseRegs) : (setPkt p s).ver = s.ver := rfl
@[simp] theorem setPkt_pkt (p : ParseRegs) : (setPkt p s).pkt = p := rfl
@[simp] theorem setPkt_work (p : ParseRegs) : (setPkt p s).work = s.work := rfl
@[simp] theorem setPkt_cfg (p : ParseRegs) : (setPkt p s).cfg = s.cfg := rfl
@[simp] theorem setPkt_wasReset (p : ParseRegs) : (setPkt p s).wasReset = s.wasReset := rfl
@[simp] theorem setPkt_hazard (p : ParseRegs) : (setPkt p s).hazard = s.hazard := rfl
@[simp] theorem setPkt_draws (p : ParseRegs) : (setPkt p s).draws = s.draws := rfl
@[simp] theorem setPkt_script (p : ParseRegs) : (setPkt p s).script = s.script := rfl
@[simp] theorem setPkt_readout (p : ParseRegs) : (setPkt p s).readout = s.readout := rfl
@[simp] theorem setPkt_chkValue (p : ParseRegs) : (setPkt p s).chkValue = s.chkValue := rfl

@[simp] theorem setWork_fb (w : Work) : (setWork w s).fb = s.fb := rfl
@[simp] theorem setWork_len (w : Work) : (setWork w s).len = s.len := rfl
@[simp] theorem setWork_busy (w : Work) : (setWork w s).busy = s.busy := rfl
@[simp] theorem setWork_done (w : Work) : (setWork w s).done = s.done := rfl
@[simp] theorem setWork_ver (w : Work) : (setWork w s).ver = s.ver := rfl
@[simp] theorem setWork_pkt (w : Work) : (setWork w s).pkt = s.pkt := rfl
@[simp] theorem setWork_work (w : Work) : (setWork w s).work = w := rfl
@[simp] theorem setWork_cfg (w : Work) : (setWork w s).cfg = s.cfg := rfl
@[simp] theorem setWork_wasReset (w : Work) : (setWork w s).wasReset = s.wasReset := rfl
@[simp] theorem setWork_hazard (w : Work) : (setWork w s).hazard = s.hazard := rfl
@[simp] theorem setWork_draws (w : Work) : (setWork w s).draws = s.draws := rfl
@[simp] theorem setWork_script (w : Work) : (setWork w s).script = s.script := rfl
@[simp] theorem setWork_readout (w : Work) : (setWork w s).readout = s.readout := rfl
@[simp] theorem setWork_chkValue (w : Work) : (setWork w s).chkValue = s.chkValue := rfl

@[simp] theorem acceptStart_fb : (acceptStart s).fb = s.fb := rfl
@[simp] theorem acceptStart_len : (acceptStart s).len = s.len := rfl
@[simp] theorem acceptStart_busy : (acceptStart s).busy = true := rfl
@[simp] theorem acceptStart_done : (acceptStart s).done = false := rfl
@[simp] theorem acceptStart_ver : (acceptStart s).ver = .zero := rfl
@[simp] theorem acceptStart_pkt : (acceptStart s).pkt = .zero := rfl
@[simp] theorem acceptStart_work : (acceptStart s).work = .zero := rfl
@[simp] theorem acceptStart_cfg : (acceptStart s).cfg = s.cfg := rfl
@[simp] theorem acceptStart_wasReset : (acceptStart s).wasReset = s.wasReset := rfl
@[simp] theorem acceptStart_hazard : (acceptStart s).hazard = false := rfl
@[simp] theorem acceptStart_draws : (acceptStart s).draws = s.draws := rfl
@[simp] theorem acceptStart_script : (acceptStart s).script = s.script := rfl
@[simp] theorem acceptStart_readout : (acceptStart s).readout = s.readout := rfl
@[simp] theorem acceptStart_chkValue : (acceptStart s).chkValue = s.chkValue := rfl

@[simp] theorem finish_fb : (finish s).fb = s.fb := rfl
@[simp] theorem finish_len : (finish s).len = s.len := rfl
@[simp] theorem finish_busy : (finish s).busy = false := rfl
@[simp] theorem finish_done : (finish s).done = true := rfl
@[simp] theorem finish_ver : (finish s).ver = s.ver := rfl
@[simp] theorem finish_pkt : (finish s).pkt = s.pkt := rfl
@[simp] theorem finish_work : (finish s).work = s.work := rfl
@[simp] theorem finish_cfg : (finish s).cfg = s.cfg := rfl
@[simp] theorem finish_wasReset : (finish s).wasReset = s.wasReset := rfl
@[simp] theorem finish_hazard : (finish s).hazard = s.hazard := rfl
@[simp] theorem finish_draws : (finish s).draws = s.draws := rfl
@[simp] theorem finish_script : (finish s).script = s.script := rfl
@[simp] theorem finish_readout : (finish s).readout = s.readout := rfl
@[simp] theorem finish_chkValue : (finish s).chkValue = s.chkValue := rfl

@[simp] theorem drawFree_fb : (drawFree s).fb = s.fb := rfl
@[simp] theorem drawFree_len : (drawFree s).len = s.len := rfl
@[simp] theorem drawFree_busy : (drawFree s).busy = s.busy := rfl
@[simp] theorem drawFree_done : (drawFree s).done = s.done := rfl
@[simp] theorem drawFree_ver : (drawFree s).ver = ⟨Config.freeVerifyOk s.draws, Config.freeAcc s.draws, Config.freeChkRx s.draws⟩ := rfl
@[simp] theorem drawFree_pkt : (drawFree s).pkt = ⟨Config.freeParseSt s.draws, Config.freeBadStart s.draws, Config.freeBadEnd s.draws, Config.freeCommand s.draws,
      Config.freePktStatus s.draws, Config.freeDlen s.draws⟩ := rfl
@[simp] theorem drawFree_work : (drawFree s).work = s.work := rfl
@[simp] theorem drawFree_cfg : (drawFree s).cfg = s.cfg := rfl
@[simp] theorem drawFree_wasReset : (drawFree s).wasReset = s.wasReset := rfl
@[simp] theorem drawFree_hazard : (drawFree s).hazard = s.hazard := rfl
@[simp] theorem drawFree_draws : (drawFree s).draws = s.draws + 1 := rfl
@[simp] theorem drawFree_script : (drawFree s).script = s.script := rfl
@[simp] theorem drawFree_readout : (drawFree s).readout = s.readout := rfl
@[simp] theorem drawFree_chkValue : (drawFree s).chkValue = s.chkValue := rfl

@[simp] theorem resetRegs_fb : (resetRegs s).fb = s.fb := rfl
@[simp] theorem resetRegs_len : (resetRegs s).len = 0 := rfl
@[simp] theorem resetRegs_busy : (resetRegs s).busy = false := rfl
@[simp] theorem resetRegs_done : (resetRegs s).done = false := rfl
@[simp] theorem resetRegs_ver : (resetRegs s).ver = .zero := rfl
@[simp] theorem resetRegs_pkt : (resetRegs s).pkt = .zero := rfl
@[simp] theorem resetRegs_work : (resetRegs s).work = .zero := rfl
@[simp] theorem resetRegs_cfg : (resetRegs s).cfg = s.cfg := rfl
@[simp] theorem resetRegs_wasReset : (resetRegs s).wasReset = true := rfl
@[simp] theorem resetRegs_hazard : (resetRegs s).hazard = false := rfl
@[simp] theorem resetRegs_draws : (resetRegs s).draws = s.draws := rfl
@[simp] theorem resetRegs_script : (resetRegs s).script = s.script := rfl
@[simp] theorem resetRegs_readout : (resetRegs s).readout = s.readout := rfl
@[simp] theorem resetRegs_chkValue : (resetRegs s).chkValue = s.chkValue := rfl

@[simp] theorem setScript_fb (r : List Slot) : (setScript r s).fb = s.fb := rfl
@[simp] theorem setScript_len (r : List Slot) : (setScript r s).len = s.len := rfl
@[simp] theorem setScript_busy (r : List Slot) : (setScript r s).busy = s.busy := rfl
@[simp] theorem setScript_done (r : List Slot) : (setScript r s).done = s.done := rfl
@[simp] theorem setScript_ver (r : List Slot) : (setScript r s).ver = s.ver := rfl
@[simp] theorem setScript_pkt (r : List Slot) : (setScript r s).pkt = s.pkt := rfl
@[simp] theorem setScript_work (r : List Slot) : (setScript r s).work = s.work := rfl
@[simp] theorem setScript_cfg (r : List Slot) : (setScript r s).cfg = s.cfg := rfl
@[simp] theorem setScript_wasReset (r : List Slot) : (setScript r s).wasReset = s.wasReset := rfl
@[simp] theorem setScript_hazard (r : List Slot) : (setScript r s).hazard = s.hazard := rfl
@[simp] theorem setScript_draws (r : List Slot) : (setScript r s).draws = s.draws := rfl
@[simp] theorem setScript_script (r : List Slot) : (setScript r s).script = r := rfl
@[simp] theorem setScript_readout (r : List Slot) : (setScript r s).readout = s.readout := rfl
@[simp] theorem setScript_chkValue (r : List Slot) : (setScript r s).chkValue = s.chkValue := rfl

@[simp] theorem setReadout_fb (x : Nat) : (setReadout x s).fb = s.fb := rfl
@[simp] theorem setReadout_len (x : Nat) : (setReadout x s).len = s.len := rfl
@[simp] theorem setReadout_busy (x : Nat) : (setReadout x s).busy = s.busy := rfl
@[simp] theorem setReadout_done (x : Nat) : (setReadout x s).done = s.done := rfl
@[simp] theorem setReadout_ver (x : Nat) : (setReadout x s).ver = s.ver := rfl
@[simp] theorem setReadout_pkt (x : Nat) : (setReadout x s).pkt = s.pkt := rfl
@[simp] theorem setReadout_work (x : Nat) : (setReadout x s).work = s.work := rfl
@[simp] theorem setReadout_cfg (x : Nat) : (setReadout x s).cfg = s.cfg := rfl
@[simp] theorem setReadout_wasReset (x : Nat) : (setReadout x s).wasReset = s.wasReset := rfl
@[simp] theorem setReadout_hazard (x : Nat) : (setReadout x s).hazard = s.hazard := rfl
@[simp] theorem setReadout_draws (x : Nat) : (setReadout x s).draws = s.draws := rfl
@[simp] theorem setReadout_script (x : Nat) : (setReadout x s).script = s.script := rfl
@[simp] theorem setReadout_readout (x : Nat) : (setReadout x s).readout = some x := rfl
@[simp] theorem setReadout_chkValue (x : Nat) : (setReadout x s).chkValue = s.chkValue := rfl

@[simp] theorem setChk_fb (c : Word16) : (setChk c s).fb = s.fb := rfl
@[simp] theorem setChk_len (c : Word16) : (setChk c s).len = s.len := rfl
@[simp] theorem setChk_busy (c : Word16) : (setChk c s).busy = s.busy := rfl
@[simp] theorem setChk_done (c : Word16) : (setChk c s).done = s.done := rfl
@[simp] theorem setChk_ver (c : Word16) : (setChk c s).ver = s.ver := rfl
@[simp] theorem setChk_pkt (c : Word16) : (setChk c s).pkt = s.pkt := rfl
@[simp] theorem setChk_work (c : Word16) : (setChk c s).work = s.work := rfl
@[simp] theorem setChk_cfg (c : Word16) : (setChk c s).cfg = s.cfg := rfl
@[simp] theorem setChk_wasReset (c : Word16) : (setChk c s).wasReset = s.wasReset := rfl
@[simp] theorem setChk_hazard (c : Word16) : (setChk c s).hazard = s.hazard := rfl
@[simp] theorem setChk_draws (c : Word16) : (setChk c s).draws = s.draws := rfl
@[simp] theorem setChk_script (c : Word16) : (setChk c s).script = s.script := rfl
@[simp] theorem setChk_readout (c : Word16) : (setChk c s).readout = s.readout := rfl
@[simp] theorem setChk_chkValue (c : Word16) : (setChk c s).chkValue = some c := rfl

end Sys2Proof.Machine
end

