-- ==== Sys2Proof/Laws/Memory.lean ====
section
/-! SUPPORT. The laws of the frame buffer: read after write, the canonical form, the bound of the listed offsets. -/

namespace Sys2Proof.Machine

@[simp] theorem Memory.load_store_same (m : Memory) (a : Nat) (v : Byte) :
    Memory.load (Memory.store m a v) a = some v := by
  induction m with
  | nil => simp [Memory.store, Memory.load]
  | cons c m ih =>
    obtain ⟨b, w⟩ := c
    by_cases h1 : a < b
    · simp [Memory.store, Memory.load, h1]
    · by_cases h2 : a = b <;> simp [Memory.store, Memory.load, h1, h2, ih]

theorem Memory.load_store_other (m : Memory) {a b : Nat} (v : Byte) (h : b ≠ a) :
    Memory.load (Memory.store m a v) b = Memory.load m b := by
  induction m with
  | nil => simp [Memory.store, Memory.load, h]
  | cons c m ih =>
    obtain ⟨x, w⟩ := c
    by_cases h1 : a < x
    · simp [Memory.store, Memory.load, h1, h]
    · by_cases h2 : a = x
      · subst h2; simp [Memory.store, Memory.load, h]
      · by_cases h3 : b = x <;> simp [Memory.store, Memory.load, h1, h2, h3, ih]

/-- A memory is canonical iff its tail is and its head lies below every listed offset. -/
theorem Memory.wf_cons (c : Host.Cell) (m : Memory) :
    Memory.wf (c :: m) = true ↔ Memory.wf m = true ∧ ∀ d ∈ m, c.1 < d.1 := by
  induction m generalizing c with
  | nil => simp [Memory.wf]
  | cons d m ih =>
    obtain ⟨a, v⟩ := c
    obtain ⟨b, w⟩ := d
    have hd := ih (b, w)
    constructor
    · intro h
      simp only [Memory.wf, Bool.and_eq_true, decide_eq_true_eq] at h
      refine ⟨h.2, ?_⟩
      intro e he
      rcases List.mem_cons.mp he with rfl | he
      · exact h.1
      · exact lt_trans h.1 ((hd.mp h.2).2 e he)
    · rintro ⟨h1, h2⟩
      simp only [Memory.wf, Bool.and_eq_true, decide_eq_true_eq]
      exact ⟨h2 (b, w) (by simp), h1⟩

/-- A stored cell is the new one or an old one. -/
theorem Memory.mem_store {m : Memory} {a : Nat} {v : Byte} {c : Host.Cell} (h : c ∈ Memory.store m a v) :
    c = (a, v) ∨ c ∈ m := by
  induction m with
  | nil => simpa [Memory.store] using h
  | cons d m ih =>
    obtain ⟨b, w⟩ := d
    simp only [Memory.store] at h
    split at h
    · simpa using h
    · split at h
      · rcases List.mem_cons.mp h with h | h
        · exact .inl h
        · exact .inr (by simp [h])
      · rcases List.mem_cons.mp h with h | h
        · exact .inr (by simp [h])
        · rcases ih h with h | h
          · exact .inl h
          · exact .inr (by simp [h])

/-- Every write keeps the canonical form. -/
theorem Memory.store_wf {m : Memory} (a : Nat) (v : Byte) (h : Memory.wf m = true) :
    Memory.wf (Memory.store m a v) = true := by
  induction m with
  | nil => rfl
  | cons d m ih =>
    obtain ⟨b, w⟩ := d
    have hd := (Memory.wf_cons (b, w) m).mp h
    simp only [Memory.store]
    split
    · rename_i hab
      refine (Memory.wf_cons _ _).mpr ⟨h, ?_⟩
      intro e he
      rcases List.mem_cons.mp he with rfl | he
      · exact hab
      · exact lt_trans hab (hd.2 e he)
    · split
      · rename_i hab
        subst hab
        exact (Memory.wf_cons _ _).mpr hd
      · refine (Memory.wf_cons _ _).mpr ⟨ih hd.1, ?_⟩
        intro e he
        rcases Memory.mem_store he with rfl | he
        · show b < a; omega
        · exact hd.2 e he

/-- A write inside a bound keeps every listed offset inside it. -/
theorem Memory.store_in {m : Memory} {a n : Nat} (v : Byte) (h : ∀ c ∈ m, c.1 < n) (ha : a < n) :
    ∀ c ∈ Memory.store m a v, c.1 < n := by
  intro c hc
  rcases Memory.mem_store hc with rfl | hc
  · exact ha
  · exact h c hc

theorem reset_memory_wf : Memory.wf State.reset.fb = true := rfl

end Sys2Proof.Machine
end

