-- ==== Sys2Proof/Laws/Ops.lean ====
section
/-! SUPPORT. One lemma per shared operation saying what it can do; proofs cite these instead of unfolding. -/

namespace Sys2Proof.Machine

/-! Guards. -/

@[simp] theorem afterReset_of_reset {s : State} (h : s.wasReset = true) (o : Host.Outcome State Fault Refusal) :
    afterReset s o = o := by simp [afterReset, h]

theorem afterReset_of_not_reset {s : State} (h : s.wasReset = false) (o : Host.Outcome State Fault Refusal) :
    afterReset s o = .refused .beforeFirstReset := by simp [afterReset, h]

/-- A guarded meaning answers a next state only after the reset, and then the meaning's own. -/
theorem afterReset_next {s t : State} {o : Host.Outcome State Fault Refusal} (h : afterReset s o = .next t) :
    s.wasReset = true ∧ o = .next t := by
  unfold afterReset at h
  split at h
  · exact ⟨‹_›, h⟩
  · simp at h

/-- A frame written by the host fits the buffer whenever the meaning behind it answers a next state. -/
theorem withFrame_next {f : List Byte} {s t : State} {k : State → Host.Outcome State Fault Refusal}
    (h : withFrame f s k = .next t) : f.length ≤ s.cfg.fbSize ∧ k (presentFrame f s) = .next t := by
  unfold withFrame at h
  split at h
  · exact ⟨‹_›, h⟩
  · simp at h

theorem withFrame_of_fits {f : List Byte} {s : State} (h : f.length ≤ s.cfg.fbSize)
    (k : State → Host.Outcome State Fault Refusal) : withFrame f s k = k (presentFrame f s) := by
  simp [withFrame, h]

/-! Reading FB. -/

@[simp] theorem fbRead_storeByte_same (s : State) (a : Nat) (v : Byte) : fbRead (storeByte a v s) a = v := by
  simp [fbRead]

theorem fbRead_storeByte_other (s : State) {a b : Nat} (v : Byte) (h : b ≠ a) :
    fbRead (storeByte a v s) b = fbRead s b := by
  simp [fbRead, Memory.load_store_other s.fb v h]

/-- Reading depends on FB alone. -/
theorem fbRead_congr {s t : State} (h : s.fb = t.fb) (a : Nat) : fbRead s a = fbRead t a := by
  simp [fbRead, h]

theorem frameOf_congr {s t : State} (h : s.fb = t.fb) (hl : s.len = t.len) : frameOf s = frameOf t := by
  simp only [frameOf, hl]
  exact List.map_congr_left fun a _ => fbRead_congr h a

@[simp] theorem frameOf_length (s : State) : (frameOf s).length = s.len := by simp [frameOf]

theorem byteAt_frameOf (s : State) {k : Nat} (h : k < s.len) : byteAt (frameOf s) k = fbRead s k := by
  simp [byteAt, frameOf, h]

/-! Writing a frame. -/

/-- Writing bytes changes FB and the hazard mark only. -/
theorem storeBytes_frame (f : List Byte) (a : Nat) (s : State) :
    storeBytes a f s = { s with fb := (storeBytes a f s).fb, hazard := (storeBytes a f s).hazard } := by
  induction f generalizing a s with
  | nil => rfl
  | cons v f ih =>
    simp only [storeBytes]
    rw [ih]
    rfl

/-- A frame that is not empty marks the hazard exactly while BUSY = 1. -/
theorem storeBytes_hazard (f : List Byte) (a : Nat) (s : State) :
    (storeBytes a f s).hazard = (s.hazard || (s.busy && !f.isEmpty)) := by
  induction f generalizing a s with
  | nil => simp [storeBytes]
  | cons v f ih =>
    simp only [storeBytes, ih, storeByte_hazard, storeByte_busy]
    cases s.hazard <;> cases s.busy <;> simp

theorem fbRead_storeBytes (f : List Byte) (a : Nat) (s : State) (b : Nat) :
    fbRead (storeBytes a f s) b = if a ≤ b ∧ b < a + f.length then byteAt f (b - a) else fbRead s b := by
  induction f generalizing a s with
  | nil =>
    have : ¬ (a ≤ b ∧ b < a) := by omega
    simp [storeBytes, this]
  | cons v f ih =>
    simp only [storeBytes, ih, List.length_cons]
    by_cases h1 : b = a
    · subst h1
      have h2 : ¬ (b + 1 ≤ b ∧ b < b + 1 + f.length) := by omega
      have h3 : b ≤ b ∧ b < b + (f.length + 1) := by omega
      simp [byteAt]
    · by_cases h2 : a + 1 ≤ b ∧ b < a + 1 + f.length
      · have h3 : a ≤ b ∧ b < a + (f.length + 1) := by omega
        have h4 : b - a = (b - (a + 1)) + 1 := by omega
        rw [if_pos h2, if_pos h3, h4]
        simp [byteAt]
      · have h3 : ¬ (a ≤ b ∧ b < a + (f.length + 1)) := by omega
        rw [if_neg h2, if_neg h3, fbRead_storeByte_other s v h1]

/-- Each field but FB, LEN and the hazard mark survives the writing of a frame. -/
theorem presentFrame_frame (f : List Byte) (s : State) :
    presentFrame f s = { s with fb := (storeBytes 0 f s).fb, len := f.length, hazard := s.hazard || s.busy } := by
  unfold presentFrame setLen
  rw [storeBytes_frame f 0 s]
  simp only [storeBytes_hazard]
  congr 1
  cases s.hazard <;> cases s.busy <;> simp

/-- After the writing of a frame the buffer holds that frame. -/
@[simp] theorem frameOf_presentFrame (f : List Byte) (s : State) : frameOf (presentFrame f s) = f := by
  have hread : ∀ k, fbRead (presentFrame f s) k = fbRead (storeBytes 0 f s) k := fun k => fbRead_congr rfl k
  apply List.ext_getElem
  · simp [frameOf, presentFrame]
  · intro k h1 h2
    simp [frameOf, hread, fbRead_storeBytes, h2, byteAt]

/-- Writing bytes keeps the canonical form. -/
theorem storeBytes_wf (f : List Byte) (a : Nat) (s : State) (h : Memory.wf s.fb = true) :
    Memory.wf (storeBytes a f s).fb = true := by
  induction f generalizing a s with
  | nil => exact h
  | cons v f ih => exact ih (a + 1) (storeByte a v s) (Memory.store_wf a v h)

/-- Writing bytes inside a bound keeps every listed offset inside it. -/
theorem storeBytes_in (f : List Byte) (a n : Nat) (s : State) (h : ∀ c ∈ s.fb, c.1 < n) (hn : a + f.length ≤ n) :
    ∀ c ∈ (storeBytes a f s).fb, c.1 < n := by
  induction f generalizing a s with
  | nil => exact h
  | cons v f ih =>
    simp only [List.length_cons] at hn
    exact ih (a + 1) (storeByte a v s) (Memory.store_in v h (by omega)) (by omega)

/-! START, VERIFY, PARSE, completion. -/

theorem giveStart_of_idle {s : State} (h : s.busy = false) : giveStart s = acceptStart s := by simp [giveStart, h]

theorem giveStart_of_busy {s : State} (h : s.busy = true) : giveStart s = s := by simp [giveStart, h]

/-- VERIFY writes its registers only. -/
theorem runVerify_eq (s : State) : runVerify s = { s with ver := verifyRegsOf (frameOf s) } := rfl

/-- PARSE writes its registers only. -/
theorem runParse_eq (s : State) : runParse s = { s with pkt := parseRegsOf (frameOf s) } := by
  unfold runParse parseRegsOf
  cases parseFrame (frameOf s) <;> rfl

theorem completeOp_of_idle {s : State} (h : s.busy = false) : completeOp s = s := by simp [completeOp, h]

/-- Completion without a hazard. -/
theorem completeOp_of_busy {s : State} (hb : s.busy = true) (hh : s.hazard = false) :
    completeOp s = { s with ver := verifyRegsOf (frameOf s), pkt := parseRegsOf (frameOf s),
                            busy := false, done := true } := by
  have hf : frameOf (runVerify s) = frameOf s := frameOf_congr rfl rfl
  unfold completeOp
  rw [if_pos hb, if_neg (by simp [hh]), runParse_eq, hf]
  rfl

/-- Completion after a hazard. -/
theorem completeOp_of_hazard {s : State} (hb : s.busy = true) (hh : s.hazard = true) :
    completeOp s = finish (drawFree s) := by simp [completeOp, hb, hh]

/-! One step. -/

theorem step_nil {s : State} (h : s.script = []) : step s = exec .complete s := by simp [step, h]

theorem step_op {s : State} {i : Instr} {r : List Slot} (h : s.script = .op i :: r) :
    step s = exec i (setScript r s) := by simp [step, h]

theorem step_code {s : State} {f : List Byte} {r : List Slot} (h : s.script = .code f :: r) :
    step s = afterReset s (withFrame f (setScript r s) (exec (rowOf f))) := by simp [step, h]

/-- All a step can be, when it answers a next state. -/
theorem step_cases {s t : State} (h : step s = .next t) :
    (s.script = [] ∧ exec .complete s = .next t) ∨
    (∃ i r, s.script = .op i :: r ∧ exec i (setScript r s) = .next t) ∨
    (∃ f r, s.script = .code f :: r ∧ s.wasReset = true ∧ f.length ≤ s.cfg.fbSize ∧
      exec (rowOf f) (presentFrame f (setScript r s)) = .next t) := by
  cases hs : s.script with
  | nil => exact .inl ⟨rfl, by rwa [step_nil hs] at h⟩
  | cons e r =>
    cases e with
    | op i => exact .inr (.inl ⟨i, r, rfl, by rwa [step_op hs] at h⟩)
    | code f =>
      rw [step_code hs] at h
      obtain ⟨h1, h2⟩ := afterReset_next h
      obtain ⟨h3, h4⟩ := withFrame_next h2
      exact .inr (.inr ⟨f, r, rfl, h1, h3, h4⟩)

/-! Sequences. -/

@[simp] theorem execAll_nil (s : State) : execAll [] s = .next s := rfl

theorem execAll_cons {i : Instr} {s t : State} (h : exec i s = .next t) (is : List Instr) :
    execAll (i :: is) s = execAll is t := by simp [execAll, h]

theorem execAll_append {is : List Instr} {s t : State} (h : execAll is s = .next t) (js : List Instr) :
    execAll (is ++ js) s = execAll js t := by
  induction is generalizing s with
  | nil => simp only [execAll_nil, Host.Outcome.next.injEq] at h; subst h; rfl
  | cons i is ih =>
    simp only [execAll, List.cons_append] at h ⊢
    cases hi : exec i s with
    | next u => rw [hi] at h; exact ih h
    | fault r => rw [hi] at h; simp at h
    | refused r => rw [hi] at h; simp at h

end Sys2Proof.Machine
end

