-- ==== Sys2Proof/Laws/Exec.lean ====
section
/-! SUPPORT. What VERIFY and PARSE see of the buffer, and one lemma per kind of row saying all it can do. -/

namespace Sys2Proof.Machine

/-! The frame in the buffer, byte by byte. -/

theorem bodyOf_frameOf (s : State) : bodyOf (frameOf s) = (List.range (s.len - 5)).map fun k => fbRead s (2 + k) := by
  unfold bodyOf
  rw [frameOf_length]
  apply List.ext_getElem
  · simp [bodyFirst, trailerLen]
    omega
  · intro k h1 h2
    simp [bodyFirst, frameOf]

theorem frameOf_acceptStart (s : State) : frameOf (acceptStart s) = frameOf s := frameOf_congr rfl rfl

theorem fbRead_presentFrame_beyond (f : List Byte) (s : State) {b : Nat} (h : f.length ≤ b) :
    fbRead (presentFrame f s) b = fbRead s b := by
  have e : fbRead (presentFrame f s) b = fbRead (storeBytes 0 f s) b := fbRead_congr rfl b
  rw [e, fbRead_storeBytes, if_neg (by omega)]

/-! VERIFY's and PARSE's results in terms of FB. -/

theorem verifyRegsOf_short {s : State} (h : s.len < 6) : verifyRegsOf (frameOf s) = .zero := by
  simp [verifyRegsOf, verifyFrame, computedChecksum, receivedChecksum, minVerifyLen, h, VerifyRegs.zero]

theorem verifyRegsOf_long {s : State} (h : 6 ≤ s.len) :
    verifyRegsOf (frameOf s) =
      ⟨hiByte (chkOf (bodyOf (frameOf s))) == fbRead s (s.len - 3)
          && loByte (chkOf (bodyOf (frameOf s))) == fbRead s (s.len - 2),
        chkOf (bodyOf (frameOf s)), beWord (fbRead s (s.len - 3)) (fbRead s (s.len - 2))⟩ := by
  have h6 : ¬ s.len < 6 := by omega
  simp [verifyRegsOf, verifyFrame, computedChecksum, receivedChecksum, minVerifyLen, h6]
  rw [byteAt_frameOf s (by omega : s.len - 3 < s.len), byteAt_frameOf s (by omega : s.len - 2 < s.len)]
  simp

theorem parseFrame_short {s : State} (h : s.len < 7) : parseFrame (frameOf s) = .error .tooShort := by
  simp [parseFrame, minParseLen, h]

theorem parseFrame_long {s : State} (h : 7 ≤ s.len) :
    parseFrame (frameOf s) =
      if (fbRead s 0 != 0xDD) || (fbRead s (s.len - 1) != 0x77) then
        .error (.badMarker (fbRead s 0 != 0xDD) (fbRead s (s.len - 1) != 0x77))
      else if s.len < (fbRead s 3).toNat + 7 then .error .truncatedData
      else .ok ⟨fbRead s 1, fbRead s 2, fbRead s 3, ((frameOf s).drop 4).take (fbRead s 3).toNat⟩ := by
  have h7 : ¬ s.len < 7 := by omega
  unfold parseFrame
  simp only [frameOf_length, minParseLen, h7, if_false, offStart, offDlen, offCommand, offStatus, offData,
    frameOverhead, startMarker, endMarker]
  rw [byteAt_frameOf s (by omega : 0 < s.len), byteAt_frameOf s (by omega : s.len - 1 < s.len),
    byteAt_frameOf s (by omega : 3 < s.len), byteAt_frameOf s (by omega : 1 < s.len),
    byteAt_frameOf s (by omega : 2 < s.len)]

theorem markersRight_iff (s : State) :
    markersRight s = true ↔ fbRead s 0 = 0xDD ∧ fbRead s (s.len - 1) = 0x77 := by
  simp [markersRight, startWrong, endWrong, startByte, endByte, offStart, startMarker, endMarker]

/-! Rows after the reset. -/

theorem exec_complete {s : State} (h : s.wasReset = true) : exec .complete s = .next (completeOp s) :=
  afterReset_of_reset h _

theorem exec_run {s : State} (h : s.wasReset = true) : exec .run s = .next (runOp s) := afterReset_of_reset h _

theorem exec_verify {s : State} (h : s.wasReset = true) :
    exec .verify s = .next { s with ver := verifyRegsOf (frameOf s) } := afterReset_of_reset h _

theorem exec_parse {s : State} (h : s.wasReset = true) :
    exec .parse s = .next { s with pkt := parseRegsOf (frameOf s) } := by
  rw [← runParse_eq]
  exact afterReset_of_reset h _

theorem exec_frame {cmd status : Byte} {data slack : List Byte} {s : State} (h : s.wasReset = true)
    (hd : data.length ≤ 255) (hl : data.length + slack.length + 7 ≤ s.cfg.fbSize) :
    exec (.frame cmd status data slack) s = .next (presentFrame (frameBytes cmd status data slack) s) :=
  (afterReset_of_reset h _).trans (by rw [if_pos hd, withFrame_of_fits (by rw [frameBytes_length]; omega)])

/-- RUN from an idle or finished core. -/
theorem runOp_idle {s : State} (hb : s.busy = false) :
    runOp s = { s with ver := verifyRegsOf (frameOf s), pkt := parseRegsOf (frameOf s), busy := false, done := true,
                       work := .zero, hazard := false } := by
  unfold runOp
  rw [if_neg (by simp [hb]), completeOp_of_busy rfl rfl, frameOf_acceptStart]
  rfl

/-- A quiet row of a running operation changes nothing but what was handed to the host. -/
theorem exec_quiet {i : Instr} {s : State} (h : s.wasReset = true) (hb : s.busy = true)
    (hq : i.quiet s.cfg = true) : ∃ r c, exec i s = .next { s with readout := r, chkValue := c } := by
  cases i <;> simp [Instr.quiet] at hq
  case hostStart =>
    exact ⟨s.readout, s.chkValue, (afterReset_of_reset h _).trans (by rw [giveStart_of_busy hb])⟩
  case chk b => exact ⟨s.readout, some (chkOf b), rfl⟩
  case hostRead p =>
    cases p <;> simp [Port.wellFormed] at hq <;>
      first
      | exact ⟨_, s.chkValue, afterReset_of_reset h _⟩
      | exact ⟨_, s.chkValue, (afterReset_of_reset h _).trans (by simp only [portValue, hq, if_true]; rfl)⟩

/-- A writing row writes the same into FB and LEN whatever the rest of the state, and marks the hazard while BUSY. -/
theorem exec_writes {i : Instr} {s : State} (hq : i.writes s.cfg = true) :
    ∃ fb len, ∀ t : State, t.wasReset = true → t.cfg = s.cfg → t.fb = s.fb → t.len = s.len →
      exec i t = .next { t with fb := fb, len := len, hazard := t.hazard || t.busy } := by
  cases i <;> simp [Instr.writes] at hq
  case hostWriteFb a v =>
    refine ⟨Memory.store s.fb a v, s.len, fun t h1 h2 h3 h4 => ?_⟩
    simp [exec, execHostWriteFb, h1, h2, hq, storeByte, h3, h4]
  case hostWriteLen n =>
    refine ⟨s.fb, n, fun t h1 h2 h3 h4 => ?_⟩
    simp [exec, execHostWriteLen, h1, h2, hq, setLen, h3]

end Sys2Proof.Machine
end

