-- ==== Sys2Proof/Laws/PerInstr.lean ====
section
/-! SUPPORT. Facts of the syntax, one lemma per row of the table. -/

namespace Sys2Proof.Laws.RowKinds

/-- A row is never both quiet and writing, and each of these kinds is a move with its operands in range. -/
def Statement (i : Instr) : Prop :=
  ∀ c : Config, (i.quiet c && i.writes c) = false
    ∧ (i.quiet c = true ∨ i.writes c = true → i.isMove = true ∧ i.wellFormed c = true)

/-- A row of neither kind. -/
theorem of_neither {i : Instr} (h : ∀ c : Config, i.quiet c = false ∧ i.writes c = false) : Statement i := by
  intro c
  simp [h c]

/-- A quiet row. -/
theorem of_quiet {i : Instr} (hm : i.isMove = true) (h : ∀ c : Config, i.writes c = false)
    (hw : ∀ c : Config, i.quiet c = true → i.wellFormed c = true) : Statement i := by
  intro c
  simp only [h c, Bool.and_false, Bool.false_eq_true, or_false, true_and]
  exact fun hq => ⟨hm, hw c hq⟩

/-- A writing row. -/
theorem of_writes {i : Instr} (hm : i.isMove = true) (h : ∀ c : Config, i.quiet c = false)
    (hw : ∀ c : Config, i.writes c = true → i.wellFormed c = true) : Statement i := by
  intro c
  simp only [h c, Bool.false_and, Bool.false_eq_true, false_or, true_and]
  exact fun hq => ⟨hm, hw c hq⟩

theorem run : Statement .run := of_neither fun _ => ⟨rfl, rfl⟩

theorem verify : Statement .verify := of_neither fun _ => ⟨rfl, rfl⟩

theorem parse : Statement .parse := of_neither fun _ => ⟨rfl, rfl⟩

theorem reqHwinfo : Statement .reqHwinfo := of_neither fun _ => ⟨rfl, rfl⟩

theorem verifyGuard : Statement .verifyGuard := of_neither fun _ => ⟨rfl, rfl⟩

theorem verifyBody : Statement .verifyBody := of_neither fun _ => ⟨rfl, rfl⟩

theorem verifyAccumulate : Statement .verifyAccumulate := of_neither fun _ => ⟨rfl, rfl⟩

theorem verifyEncode : Statement .verifyEncode := of_neither fun _ => ⟨rfl, rfl⟩

theorem verifyFetch : Statement .verifyFetch := of_neither fun _ => ⟨rfl, rfl⟩

theorem verifyCompare : Statement .verifyCompare := of_neither fun _ => ⟨rfl, rfl⟩

theorem parseLencheck : Statement .parseLencheck := of_neither fun _ => ⟨rfl, rfl⟩

theorem parseMarkers : Statement .parseMarkers := of_neither fun _ => ⟨rfl, rfl⟩

theorem parseMarkerId : Statement .parseMarkerId := of_neither fun _ => ⟨rfl, rfl⟩

theorem parseHeader : Statement .parseHeader := of_neither fun _ => ⟨rfl, rfl⟩

theorem parseDlencheck : Statement .parseDlencheck := of_neither fun _ => ⟨rfl, rfl⟩

theorem parseData : Statement .parseData := of_neither fun _ => ⟨rfl, rfl⟩

theorem complete : Statement .complete := of_neither fun _ => ⟨rfl, rfl⟩

theorem hostWriteFb (a : Nat) (v : Byte) : Statement (.hostWriteFb a v) :=
  of_writes rfl (fun _ => rfl) fun _ h => h

theorem hostWriteLen (n : Nat) : Statement (.hostWriteLen n) := of_writes rfl (fun _ => rfl) fun _ h => h

theorem hostStart : Statement .hostStart := of_quiet rfl (fun _ => rfl) fun _ h => h

theorem hostRead (p : Port) : Statement (.hostRead p) := by
  cases p with
  | data j => exact of_neither fun _ => ⟨rfl, rfl⟩
  | _ => exact of_quiet rfl (fun _ => rfl) fun _ h => h

theorem hostReset : Statement .hostReset := of_neither fun _ => ⟨rfl, rfl⟩

theorem chk (body : List Byte) : Statement (.chk body) := of_quiet rfl (fun _ => rfl) fun _ h => h

theorem frame (cmd status : Byte) (data slack : List Byte) : Statement (.frame cmd status data slack) :=
  of_neither fun _ => ⟨rfl, rfl⟩

end Sys2Proof.Laws.RowKinds
end

