-- ==== Sys2Proof/Tests/Slice0.lean ====
section
/-! SUPPORT. The model's own tests. Expected values are the spec's: the vectors of 95_test_vectors.md (S1 to S4, V1 to
V21, P1 to P19, PR1 to PR5, named where they are used) and the examples of the rules. Then one theorem for every
statement that has hypotheses, with a state and operands that meet them all, clause by clause at boundary values. -/

namespace Sys2Proof.Tests

open Sys2Proof.Machine

/-! One theorem at a time, since each waits for the kernel; in parallel the waiting threads would fill the memory. -/
set_option Elab.async false

/-! States to test on. -/

/-- Idle after reset with a frame written. -/
def ready (f : List Byte) : State := { State.reset with fb := (List.range f.length).zip f, len := f.length }

/-- The operation on a frame running. -/
def running (f : List Byte) : State := { ready f with busy := true }

/-- The operation on S2's frame finished (PR1's end state). -/
def finishedS2 : State :=
  { ready [0xDD, 0x01, 0x00, 0x03, 0x41, 0x42, 0x43, 0xFF, 0x37, 0x77] with
    done := true, ver := ⟨true, 0xFF37, 0xFF37⟩, pkt := ⟨1, false, false, 0x01, 0x00, 3⟩ }

/-- The state an outcome holds. -/
def after : Host.Outcome State Fault Refusal → Option State
  | .next t => some t
  | _ => none

/-- What the host reads of a state (95_test_vectors.md section 5): BUSY, DONE, VERIFY_OK, ACC, CHK_RX, the PARSE
registers, DATA. -/
def view (t : State) : Bool × Bool × VerifyRegs × ParseRegs × List Byte := (t.busy, t.done, t.ver, t.pkt, dataView t)

/-- The visible registers after one row. -/
def shows (i : Instr) (s : State) : Option (Bool × Bool × VerifyRegs × ParseRegs × List Byte) :=
  (after (exec i s)).map view

/-- The results of RUN on a frame. -/
def results (f : List Byte) : Option (VerifyRegs × ParseRegs × List Byte) :=
  (after (exec .run (ready f))).map fun t => (t.ver, t.pkt, dataView t)

/-- S1: the request frame. -/
def s1 : List Byte := [0xDD, 0xA5, 0x05, 0x00, 0xFF, 0xFB, 0x77]
/-- S2: the round-trip frame. -/
def s2 : List Byte := [0xDD, 0x01, 0x00, 0x03, 0x41, 0x42, 0x43, 0xFF, 0x37, 0x77]
/-- P10: `N = 4` in 10 bytes. -/
def p10 : List Byte := [0xDD, 0x01, 0x00, 0x04, 0x41, 0x42, 0x43, 0xFF, 0x36, 0x77]
/-- P8: both markers wrong. -/
def p8 : List Byte := [0x77, 0x01, 0x00, 0x03, 0x41, 0x42, 0x43, 0xFF, 0x37, 0xDD]
/-- V9: the zero sum. -/
def v9 : List Byte := [0xDD, 0x03, 0x00, 0x00, 0x00, 0x00, 0x77]
/-- V7: the shortest evaluated frame. -/
def v7 : List Byte := [0xDD, 0x03, 0x00, 0x00, 0x00, 0x77]
/-- V6: the longest frame not evaluated. -/
def v6 : List Byte := [0xDD, 0x03, 0x00, 0x00, 0x00]
/-- P13: two slack bytes. -/
def p13 : List Byte := [0xDD, 0x03, 0x00, 0x01, 0x41, 0x99, 0x99, 0xFE, 0x8C, 0x77]

/-! WellFormed refuses an ill-formed term for each of its checks and takes the boundary value beside it. -/

theorem test_wellformed_refuses :
    Instr.wellFormed .reference (.hostWriteFb 511 0) = false
    ∧ Instr.wellFormed .reference (.hostWriteLen 512) = false
    ∧ Instr.wellFormed .reference (.hostRead (.fb 511)) = false
    ∧ Instr.wellFormed .reference (.hostRead (.data 255)) = false
    ∧ Instr.wellFormed .reference (.frame 0 0 (List.replicate 256 0) []) = false
    ∧ Instr.wellFormed .reference (.frame 0 0 [] (List.replicate 505 0)) = false
    ∧ Instr.wellFormed ⟨2⟩ .reqHwinfo = false := by decide +kernel

theorem test_wellformed_takes :
    Instr.wellFormed .reference (.hostWriteFb 510 0) = true
    ∧ Instr.wellFormed .reference (.hostWriteLen 511) = true
    ∧ Instr.wellFormed .reference (.hostRead (.fb 510)) = true
    ∧ Instr.wellFormed .reference (.hostRead (.data 254)) = true
    ∧ Instr.wellFormed .reference (.frame 0 0 (List.replicate 255 0) (List.replicate 249 0)) = true
    ∧ Instr.wellFormed .reference .reqHwinfo = true
    ∧ Instr.wellFormed .reference .run = true := by decide +kernel

/-! Decoding. REQ_HWINFO and PARSE are the two rows with an encoding (R61, R66, R68); the bits are written out from the
table's match and mask. -/

theorem test_decode_req_hwinfo_bits :
    decodeTableWord 56 0b11011101101001010000010100000000111111111111101101110111 = some .reqHwinfo := by decide +kernel

/-- One bit off the literal frame, in the command byte, is an ordinary frame. -/
theorem test_decode_near_req_hwinfo :
    decodeTableWord 56 0b11011101101001000000010100000000111111111111101101110111 = some .parse := by decide +kernel

/-- The shortest frame of PARSE's pattern: DD, 00, 00, 00 for `N = 0`, 00, 00, 77 (P5). -/
theorem test_decode_parse_bits :
    decode [0b11011101, 0b00000000, 0b00000000, 0b00000000, 0b00000000, 0b00000000, 0b01110111] = .ok .parse := by
  decide +kernel

/-- Bytes that no row takes are rejected by name, each by its first cause (R109). -/
theorem test_decode_rejects :
    decode [] = .error .tooShort ∧ decode v7 = .error .tooShort
    ∧ decode p8 = .error (.badMarker true true) ∧ decode p10 = .error .truncatedData
    ∧ decodeTableWord 0 0 = none ∧ decodeTableWord 56 0 = none := by decide +kernel

/-- R70's example frames: the encoder gives S2's bytes and P13's, and the literal frame (R68). -/
theorem test_encode :
    encode (.frame 0x01 0x00 [0x41, 0x42, 0x43] []) = some s2
    ∧ encode (.frame 0x03 0x00 [0x41] [0x99, 0x99]) = some p13
    ∧ encode .reqHwinfo = some s1 ∧ encode .run = none := by decide +kernel

/-- Big-endian (R44, R85). -/
theorem test_byte_order : hiByte 0xFFFB = 0xFF ∧ loByte 0xFFFB = 0xFB ∧ beWord 0xFF 0xFB = 0xFFFB := by decide +kernel

/-! The vectors, by RUN on the frame. -/

/-- S1, S2 and S3 with its patch. -/
theorem test_run_source_frames :
    [s1,
      s2,
      [0xDD, 0x01, 0x00, 0x03, 0x41, 0x42, 0x43, 0x00, 0x00, 0x77]].map results
    = [(⟨true, 0xFFFB, 0xFFFB⟩, ⟨1, false, false, 0xA5, 0x05, 0⟩, []),
      (⟨true, 0xFF37, 0xFF37⟩, ⟨1, false, false, 0x01, 0x00, 3⟩, [0x41, 0x42, 0x43]),
      (⟨false, 0xFF37, 0x0000⟩, ⟨1, false, false, 0x01, 0x00, 3⟩, [0x41, 0x42, 0x43])].map some := by decide +kernel

/-- V1 to V8, P3: short frames. -/
theorem test_run_short_frames :
    [[],
      [0xDD],
      [0xDD, 0x03],
      [0xDD, 0x03, 0x00],
      [0xDD, 0x03, 0x00, 0x00],
      v6,
      v7,
      [0xDD, 0x03, 0x01, 0xFF, 0xFF, 0x77],
      [0x00, 0x03, 0x00, 0x00, 0x00, 0x00]].map results
    = [(⟨false, 0, 0⟩, ⟨2, false, false, 0, 0, 0⟩, []),
      (⟨false, 0, 0⟩, ⟨2, false, false, 0, 0, 0⟩, []),
      (⟨false, 0, 0⟩, ⟨2, false, false, 0, 0, 0⟩, []),
      (⟨false, 0, 0⟩, ⟨2, false, false, 0, 0, 0⟩, []),
      (⟨false, 0, 0⟩, ⟨2, false, false, 0, 0, 0⟩, []),
      (⟨false, 0, 0⟩, ⟨2, false, false, 0, 0, 0⟩, []),
      (⟨true, 0, 0⟩, ⟨2, false, false, 0, 0, 0⟩, []),
      (⟨true, 0xFFFF, 0xFFFF⟩, ⟨2, false, false, 0, 0, 0⟩, []),
      (⟨true, 0, 0⟩, ⟨2, false, false, 0, 0, 0⟩, [])].map some := by decide +kernel

/-- V9 to V15, V20, V21: the checksum. -/
theorem test_run_checksums :
    [v9,
      [0xDD, 0x03, 0x00, 0x00, 0x01, 0x00, 0x77],
      [0xDD, 0xA5, 0x05, 0x00, 0xFE, 0xFB, 0x77],
      [0xDD, 0xA5, 0x05, 0x00, 0xFF, 0xFA, 0x77],
      [0xDD, 0xA5, 0x05, 0x00, 0xFB, 0xFF, 0x77],
      [0x00, 0xA5, 0x05, 0x00, 0xFF, 0xFB, 0x00],
      [0xDD, 0x5A, 0x05, 0x00, 0xFF, 0xFB, 0x77],
      [0xDD, 0x03, 0x80, 0x01, 0xFF, 0xFE, 0x80, 0x77],
      [0xDD, 0x03, 0x80, 0x01, 0xFF, 0x00, 0x80, 0x77]].map results
    = [(⟨true, 0x0000, 0x0000⟩, ⟨1, false, false, 0x03, 0, 0⟩, []),
      (⟨false, 0x0000, 0x0100⟩, ⟨1, false, false, 0x03, 0, 0⟩, []),
      (⟨false, 0xFFFB, 0xFEFB⟩, ⟨1, false, false, 0xA5, 0x05, 0⟩, []),
      (⟨false, 0xFFFB, 0xFFFA⟩, ⟨1, false, false, 0xA5, 0x05, 0⟩, []),
      (⟨false, 0xFFFB, 0xFBFF⟩, ⟨1, false, false, 0xA5, 0x05, 0⟩, []),
      (⟨true, 0xFFFB, 0xFFFB⟩, ⟨3, true, true, 0, 0, 0⟩, []),
      (⟨true, 0xFFFB, 0xFFFB⟩, ⟨1, false, false, 0x5A, 0x05, 0⟩, []),
      (⟨true, 0xFE80, 0xFE80⟩, ⟨1, false, false, 0x03, 0x80, 1⟩, [0xFF]),
      (⟨false, 0xFE80, 0x0080⟩, ⟨1, false, false, 0x03, 0x80, 1⟩, [0xFF])].map some := by decide +kernel

/-- P6 to P8, P12, P19: markers. -/
theorem test_run_markers :
    [[0xDE, 0x01, 0x00, 0x03, 0x41, 0x42, 0x43, 0xFF, 0x37, 0x77],
      [0xDD, 0x01, 0x00, 0x03, 0x41, 0x42, 0x43, 0xFF, 0x37, 0x76],
      p8,
      [0xDD, 0x01, 0x00, 0x09, 0x41, 0x42, 0x43, 0xFF, 0x31, 0x00],
      [0xDD, 0x01, 0x00, 0x03, 0x41, 0x42, 0x43, 0x00, 0x00, 0x76]].map results
    = [(⟨true, 0xFF37, 0xFF37⟩, ⟨3, true, false, 0, 0, 0⟩, []),
      (⟨true, 0xFF37, 0xFF37⟩, ⟨3, false, true, 0, 0, 0⟩, []),
      (⟨true, 0xFF37, 0xFF37⟩, ⟨3, true, true, 0, 0, 0⟩, []),
      (⟨true, 0xFF31, 0xFF31⟩, ⟨3, false, true, 0, 0, 0⟩, []),
      (⟨false, 0xFF37, 0x0000⟩, ⟨3, false, true, 0, 0, 0⟩, [])].map some := by decide +kernel

/-- P5, P9 to P11, P13, P15: lengths, slack, marker values as data. -/
theorem test_run_lengths :
    [[0xDD, 0x00, 0x00, 0x00, 0x00, 0x00, 0x77],
      [0xDD, 0x01, 0x00, 0x05, 0x41, 0x42, 0x43, 0xFF, 0x35, 0x77],
      p10,
      [0xDD, 0x01, 0x00, 0xFF, 0xFE, 0x02, 0x77],
      p13,
      [0xDD, 0x03, 0x00, 0x02, 0xDD, 0x77, 0xFE, 0xAA, 0x77]].map results
    = [(⟨true, 0, 0⟩, ⟨1, false, false, 0, 0, 0⟩, []),
      (⟨true, 0xFF35, 0xFF35⟩, ⟨4, false, false, 0, 0, 0⟩, []),
      (⟨true, 0xFF36, 0xFF36⟩, ⟨4, false, false, 0, 0, 0⟩, []),
      (⟨false, 0xFF01, 0xFE02⟩, ⟨4, false, false, 0, 0, 0⟩, []),
      (⟨true, 0xFE8C, 0xFE8C⟩, ⟨1, false, false, 0x03, 0, 1⟩, [0x41]),
      (⟨true, 0xFEAA, 0xFEAA⟩, ⟨1, false, false, 0x03, 0, 2⟩, [0xDD, 0x77])].map some := by decide +kernel

/-- V16 to V18: sums of 65535, 65790 and 65536. -/
theorem test_long_sums :
    verifyRegsOf ([0xDD, 0x03, 0xFF, 0xFF] ++ List.replicate 255 0xFF ++ [0x00, 0x01, 0x77]) = ⟨true, 0x0001, 0x0001⟩
    ∧ verifyRegsOf ([0xDD, 0x03] ++ List.replicate 258 0xFF ++ [0xFF, 0x02, 0x77]) = ⟨true, 0xFF02, 0xFF02⟩
    ∧ verifyRegsOf ([0xDD, 0x03] ++ List.replicate 257 0xFF ++ [0x01, 0x00, 0x00, 0x77]) = ⟨true, 0, 0⟩ := by
  decide +kernel

/-- P14, P16: the longest canonical frame, and the same one byte short (its data byte 60 removed). -/
theorem test_long_frames :
    (let f := [0xDD, 0x04, 0x00, 0xFF] ++ (List.range 255).map (BitVec.ofNat 8) ++ [0x80, 0x80, 0x77]
     verifyRegsOf f = ⟨true, 0x8080, 0x8080⟩ ∧ parseRegsOf f = ⟨1, false, false, 0x04, 0x00, 255⟩
      ∧ verifyRegsOf (f.eraseIdx 100) = ⟨false, 0x80E0, 0x8080⟩
      ∧ parseRegsOf (f.eraseIdx 100) = ⟨4, false, false, 0, 0, 0⟩) := by decide +kernel

/-! One step of each row. -/

/-- R80's example (S1) from a state with other results: VERIFY writes its three registers and leaves PARSE's. -/
theorem test_verify :
    shows .verify { ready s1 with pkt := ⟨4, false, false, 0, 0, 0⟩ }
      = some (false, false, ⟨true, 0xFFFB, 0xFFFB⟩, ⟨4, false, false, 0, 0, 0⟩, []) := by decide +kernel

/-- R81's example: a 5-byte frame clears the registers. -/
theorem test_verify_guard :
    shows .verifyGuard { ready v6 with ver := ⟨true, 1, 1⟩ }
      = some (false, false, ⟨false, 0, 0⟩, ⟨0, false, false, 0, 0, 0⟩, []) := by decide +kernel

/-- R82's example: the body of S2's frame is offsets 2 to 6. -/
theorem test_verify_body :
    (after (exec .verifyBody (ready s2))).map (fun t => (t.work.i, bodyFrom t t.work.i))
      = some (2, [0x00, 0x03, 0x41, 0x42, 0x43]) := by decide +kernel

/-- R83's example: body 05 00 gives 0xFFFB. -/
theorem test_verify_accumulate :
    (after (exec .verifyAccumulate { ready s1 with work := { Work.zero with i := 2 } })).map
      (fun t => (t.ver.acc, t.work.acc, t.work.i)) = some (0xFFFB, 0xFFFB, 4) := by decide +kernel

/-- R85's example: 0xFFFB encodes as FF FB. -/
theorem test_verify_encode :
    (after (exec .verifyEncode { ready s1 with work := { Work.zero with acc := 0xFFFB } })).map
      (fun t => (t.work.hi, t.work.lo)) = some (0xFF, 0xFB) := by decide +kernel

/-- R86's example: CHK_RX is 0xFFFB. -/
theorem test_verify_fetch : (after (exec .verifyFetch (ready s1))).map (fun t => t.ver.chkRx) = some 0xFFFB := by
  decide +kernel

/-- R87: equal bytes compare true, the two bytes swapped false. -/
theorem test_verify_compare :
    (after (exec .verifyCompare { ready s1 with work := { Work.zero with hi := 0xFF, lo := 0xFB } })).map
      (fun t => t.ver.verifyOk) = some true
    ∧ (after (exec .verifyCompare { ready s1 with work := { Work.zero with hi := 0xFB, lo := 0xFF } })).map
      (fun t => t.ver.verifyOk) = some false := by decide +kernel

/-- R105's example, from a state with other results: PARSE writes its registers and leaves VERIFY's. -/
theorem test_parse :
    shows .parse { ready p10 with ver := ⟨true, 1, 1⟩, pkt := ⟨1, false, false, 9, 9, 9⟩ }
      = some (false, false, ⟨true, 1, 1⟩, ⟨4, false, false, 0, 0, 0⟩, []) := by decide +kernel

/-- R101's example: 6 bytes are TooShort. -/
theorem test_parse_lencheck :
    (after (exec .parseLencheck (ready v7))).map (fun t => t.pkt) = some ⟨2, false, false, 0, 0, 0⟩ := by decide +kernel

/-- R102's example: DE .. 77 is BadMarker. -/
theorem test_parse_markers :
    (after (exec .parseMarkers (ready [0xDE, 0x01, 0x00, 0x00, 0xFF, 0x37, 0x77]))).map (fun t => t.pkt.parseSt)
      = some 3 := by decide +kernel

/-- R103's example: DD .. 76 gives (0, 1). -/
theorem test_parse_marker_id :
    (after (exec .parseMarkerId (ready [0xDD, 0x01, 0x00, 0x00, 0xFF, 0x37, 0x76]))).map
      (fun t => (t.pkt.badStart, t.pkt.badEnd)) = some (false, true) := by decide +kernel

/-- R104's example: command 0x01, status 0x00, N 3, not yet in the registers. -/
theorem test_parse_header :
    (after (exec .parseHeader (ready s2))).map (fun t => (t.work.command, t.work.status, t.work.n, t.pkt.command))
      = some (0x01, 0x00, 3, 0) := by decide +kernel

/-- R105: `N = 255` in 7 bytes, where an 8-bit `N + 7` would wrap and pass (P11). -/
theorem test_parse_dlencheck :
    (after (exec .parseDlencheck { ready s1 with work := { Work.zero with n := 255 } })).map (fun t => t.pkt.parseSt)
      = some 4 := by decide +kernel

/-- R106's example: the data is 41 only. -/
theorem test_parse_data :
    (after (exec .parseData { ready p13 with work := { Work.zero with command := 3, n := 1 } })).map
      (fun t => (t.pkt, dataView t)) = some (⟨1, false, false, 3, 0, 1⟩, [0x41]) := by decide +kernel

/-- PR1: the completion step of S2's frame. -/
theorem test_complete :
    shows .complete (running s2)
      = some (false, true, ⟨true, 0xFF37, 0xFF37⟩, ⟨1, false, false, 0x01, 0x00, 3⟩, [0x41, 0x42, 0x43]) := by
  decide +kernel

/-- PR4: after a write during the operation it completes, and the next RUN has the results of the new bytes. -/
theorem test_run_after_hazard :
    shows .run { running [0xDD, 0x01, 0x00, 0x03, 0x40, 0x42, 0x43, 0xFF, 0x37, 0x77] with
        busy := false, done := true, hazard := true }
      = some (false, true, ⟨false, 0xFF38, 0xFF37⟩, ⟨1, false, false, 0x01, 0x00, 3⟩, [0x40, 0x42, 0x43]) := by
  decide +kernel

/-- R121: an accepted START clears every result; PR3: a START while BUSY = 1 changes nothing. -/
theorem test_host_start :
    shows .hostStart finishedS2 = some (true, false, ⟨false, 0, 0⟩, ⟨0, false, false, 0, 0, 0⟩, [])
    ∧ after (exec .hostStart (running s2)) = some (running s2) := by decide +kernel

/-- A write lands at its offset only, and is a hazard exactly while BUSY = 1. -/
theorem test_host_write_fb :
    (after (exec (.hostWriteFb 4 0x40) (running s2))).map (fun t => (frameOf t, t.hazard))
      = some ([0xDD, 0x01, 0x00, 0x03, 0x40, 0x42, 0x43, 0xFF, 0x37, 0x77], true)
    ∧ (after (exec (.hostWriteFb 510 0x40) (ready s2))).map (fun t => (t.fb.length, fbRead t 510, t.hazard))
      = some (11, 0x40, false) := by decide +kernel

theorem test_host_write_len :
    (after (exec (.hostWriteLen 6) (running s2))).map (fun t => (t.len, t.hazard)) = some (6, true)
    ∧ after (exec (.hostWriteLen 511) (ready s2)) = some { ready s2 with len := 511 } := by decide +kernel

/-- R22: `DATA[2] = FB[6]`; R127: reading does not clear DONE. -/
theorem test_host_read :
    after (exec (.hostRead (.data 2)) finishedS2) = some { finishedS2 with readout := some 0x43 }
    ∧ after (exec (.hostRead .acc) finishedS2) = some { finishedS2 with readout := some 0xFF37 } := by decide +kernel

/-- R160, R161: reset while BUSY = 1 leaves FB and clears the rest. -/
theorem test_host_reset :
    after (exec .hostReset { running s2 with hazard := true, work := { Work.zero with acc := 7 } })
      = some { ready s2 with len := 0 } := by decide +kernel

/-- S4: body 05 00 gives FF FB. -/
theorem test_chk : (after (exec (.chk [0x05, 0x00]) State.reset)).map (fun t => t.chkValue) = some (some 0xFFFB) := by
  decide +kernel

/-- S2 in R70's notation. -/
theorem test_frame : after (exec (.frame 0x01 0x00 [0x41, 0x42, 0x43] []) State.reset) = some (ready s2) := by
  decide +kernel

/-- S1 presented to the core. -/
theorem test_req_hwinfo :
    shows .reqHwinfo State.reset = some (false, true, ⟨true, 0xFFFB, 0xFFFB⟩, ⟨1, false, false, 0xA5, 0x05, 0⟩, []) := by
  decide +kernel

/-- A step on the word of S2's frame, placed as the next entry right after reset, runs PARSE on it. -/
theorem test_step_word :
    (after (step (State.reset.withFetchWord 80 0xDD010003414243FF3777))).map (fun t => (frameOf t, t.pkt, t.script))
      = some (s2, ⟨1, false, false, 0x01, 0x00, 3⟩, []) := by decide +kernel

/-! A witness for every statement that has hypotheses. -/

theorem witness_ResetValues : State.reset.wasReset = true ∧ State.reset.busy = false := by decide

theorem witness_NoMoveBeforeFirstReset :
    ({ State.reset with wasReset := false } : State).wasReset = false ∧ Instr.run ≠ .hostReset
    ∧ ∀ body, Instr.run ≠ .chk body := ⟨rfl, by decide, fun _ => Instr.noConfusion⟩

theorem witness_StartAccepted :
    (finishedS2.wasReset = true ∧ finishedS2.busy = false) ∧ State.reset.wasReset = true ∧ State.reset.busy = false := by
  decide

theorem witness_StartIgnoredWhileBusy : (running s2).wasReset = true ∧ (running s2).busy = true := by decide

theorem witness_CompletionWritesBothResults :
    (running s2).wasReset = true ∧ (running s2).busy = true ∧ (running s2).hazard = false := by decide

theorem witness_CompletionAfterHazardIsFree :
    ({ running s2 with hazard := true } : State).wasReset = true ∧ ({ running s2 with hazard := true } : State).busy = true
    ∧ ({ running s2 with hazard := true } : State).hazard = true := by decide

theorem witness_DisabledRowsChangeNothing :
    ((ready s2).wasReset = true ∧ (ready s2).busy = false) ∧ (running s2).wasReset = true ∧ (running s2).busy = true := by
  decide

theorem witness_RunDeliversBothResults : finishedS2.wasReset = true ∧ finishedS2.busy = false := by decide

/-- Two states with the same frame, but other results, other bytes beyond it and another phase. -/
theorem witness_ResultsDependOnFrameAlone :
    finishedS2.wasReset = true ∧ ({ ready (s2 ++ [0x99]) with len := 10 } : State).wasReset = true
    ∧ finishedS2.busy = false ∧ ({ ready (s2 ++ [0x99]) with len := 10 } : State).busy = false
    ∧ finishedS2.len = ({ ready (s2 ++ [0x99]) with len := 10 } : State).len
    ∧ ∀ a, a < finishedS2.len → fbRead finishedS2 a = fbRead { ready (s2 ++ [0x99]) with len := 10 } a := by
  decide +kernel

theorem witness_SnapshotDeterminesResults :
    (ready s2).wasReset = true ∧ (ready s2).busy = false
    ∧ ∀ i ∈ [Instr.hostRead .busy, .hostStart, .hostRead (.fb 510), .chk [5, 0]], i.quiet (ready s2).cfg = true := by
  decide +kernel

/-- PR4's write, and the largest offset and length. -/
theorem witness_WritesDuringOperationFreeItsResults :
    (ready s2).wasReset = true ∧ (ready s2).busy = false
    ∧ [Instr.hostWriteFb 4 0x40, .hostWriteFb 510 0, .hostWriteLen 511] ≠ []
    ∧ ∀ i ∈ [Instr.hostWriteFb 4 0x40, .hostWriteFb 510 0, .hostWriteLen 511], i.writes (ready s2).cfg = true := by
  decide +kernel

theorem witness_RunningOperationCompletes :
    ({ running s2 with script := [.op (.hostRead .done), .op .hostStart] } : State).wasReset = true
    ∧ ({ running s2 with script := [.op (.hostRead .done), .op .hostStart] } : State).busy = true
    ∧ ({ running s2 with script := [.op (.hostRead .done), .op .hostStart] } : State).script
        = [Instr.hostRead .done, .hostStart].map .op
    ∧ ∀ i ∈ [Instr.hostRead .done, .hostStart], i.quiet (running s2).cfg = true := by decide +kernel

/-- 5 and 6 bytes. -/
theorem witness_VerifyGuardsShortFrames :
    ((ready v6).wasReset = true ∧ (ready v6).len < 6) ∧ (ready v7).wasReset = true ∧ 6 ≤ (ready v7).len := by decide

theorem witness_StepsBehindTheGuardDoNothing :
    (ready v6).wasReset = true ∧ (ready v6).len < 6 ∧ Instr.verifyBody ∈ [Instr.verifyBody, .verifyCompare] := by decide

theorem witness_VerifyComputesChecksum : (ready v7).wasReset = true ∧ 6 ≤ (ready v7).len := by decide

theorem witness_VerifyComparesByteForByte : (ready s2).wasReset = true ∧ 6 ≤ (ready s2).len := by decide

theorem witness_BodyStepSelectsInterior : (ready v7).wasReset = true ∧ 6 ≤ (ready v7).len := by decide

theorem witness_WrappingAccumulatorEqualsWideSum : [(0xFF : Byte), 1, 2].Perm [2, 0xFF, 1] := by decide

theorem witness_AccumulateStepWritesAcc : (ready v7).wasReset = true ∧ 6 ≤ (ready v7).len := by decide

theorem witness_EncodeStepSplitsBigEndian : (ready v7).wasReset = true ∧ 6 ≤ (ready v7).len := by decide

theorem witness_FetchStepReadsTrailer : (ready v7).wasReset = true ∧ 6 ≤ (ready v7).len := by decide

theorem witness_CompareStepWritesVerifyOk : (ready v7).wasReset = true ∧ 6 ≤ (ready v7).len := by decide

theorem witness_VerifyStepsRefineVerify : (ready s2).wasReset = true ∧ (ready v6).wasReset = true := by decide

/-- S1 against the same bytes with other markers and another command. -/
theorem witness_VerifyIgnoresMarkersAndCommand :
    (ready s1).wasReset = true ∧ (ready [0x00, 0x5A, 0x05, 0x00, 0xFF, 0xFB, 0x00]).wasReset = true
    ∧ (ready s1).len = (ready [0x00, 0x5A, 0x05, 0x00, 0xFF, 0xFB, 0x00]).len
    ∧ ∀ a, 2 ≤ a → a + 2 ≤ (ready s1).len →
        fbRead (ready s1) a = fbRead (ready [0x00, 0x5A, 0x05, 0x00, 0xFF, 0xFB, 0x00]) a := by
  refine ⟨rfl, rfl, rfl, fun a h1 h2 => ?_⟩
  have h3 : a ≤ 5 := Nat.le_of_add_le_add_right h2
  interval_cases a <;> rfl

theorem witness_PatchedChecksumVerifies :
    ((ready v7).wasReset = true ∧ (ready v7).len ≤ (ready v7).cfg.fbSize ∧ 6 ≤ (ready v7).len)
    ∧ (ready v6).wasReset = true ∧ (ready v6).len ≤ (ready v6).cfg.fbSize ∧ (ready v6).len < 6 := by decide +kernel

/-- The zero body of V9, which is also canonical with `N = 0`; and S2's canonical frame. -/
theorem witness_ChecksumCornerCases :
    (ready v9).wasReset = true ∧ 6 ≤ (ready v9).len
    ∧ (∀ a, 2 ≤ a → a + 4 ≤ (ready v9).len → fbRead (ready v9) a = 0)
    ∧ (ready v9).len = (fbRead (ready v9) 3).toNat + 7
    ∧ (ready s2).wasReset = true ∧ 6 ≤ (ready s2).len ∧ (ready s2).len = (fbRead (ready s2) 3).toNat + 7 := by
  refine ⟨rfl, by decide, fun a h1 h2 => ?_, rfl, rfl, by decide, rfl⟩
  have h3 : a ≤ 3 := Nat.le_of_add_le_add_right h2
  interval_cases a <;> rfl

/-- 6 and 7 bytes. -/
theorem witness_ParseTooShortBelowSeven :
    ((ready v7).wasReset = true ∧ (ready v7).len < 7) ∧ (ready s1).wasReset = true ∧ 7 ≤ (ready s1).len := by decide

theorem witness_ParseBadMarkerNamesTheMarkers :
    (ready p8).wasReset = true ∧ 7 ≤ (ready p8).len
    ∧ (fbRead (ready p8) 0 ≠ 0xDD ∨ fbRead (ready p8) ((ready p8).len - 1) ≠ 0x77) := by decide +kernel

/-- P10: one byte too few; S2: exactly enough. -/
theorem witness_ParseTruncatedBelowDeclaredLength :
    ((ready s2).wasReset = true ∧ 7 ≤ (ready s2).len ∧ fbRead (ready s2) 0 = 0xDD
      ∧ fbRead (ready s2) ((ready s2).len - 1) = 0x77 ∧ (fbRead (ready s2) 3).toNat + 7 ≤ (ready s2).len)
    ∧ (ready p10).wasReset = true ∧ 7 ≤ (ready p10).len ∧ fbRead (ready p10) 0 = 0xDD
    ∧ fbRead (ready p10) ((ready p10).len - 1) = 0x77 ∧ (ready p10).len < (fbRead (ready p10) 3).toNat + 7 := by
  decide +kernel

/-- S2: exactly enough bytes. -/
theorem witness_ParseAcceptsPacket :
    (ready s2).wasReset = true ∧ 7 ≤ (ready s2).len ∧ fbRead (ready s2) 0 = 0xDD
    ∧ fbRead (ready s2) ((ready s2).len - 1) = 0x77 ∧ (fbRead (ready s2) 3).toNat + 7 ≤ (ready s2).len := by
  decide +kernel

/-- A parse with data (S2) and one without a packet (P10). -/
theorem witness_DataViewStaysBelowChecksum :
    ((ready s2).wasReset = true ∧ (after (exec .parse (ready s2))).map (fun t => decide (2 < t.pkt.dlen.toNat)) = some true)
    ∧ (ready p10).wasReset = true ∧ (after (exec .parse (ready p10))).map (fun t => decide (t.pkt.parseSt ≠ 1)) = some true := by
  decide +kernel

/-- PARSE_ST = 3 (P8), and another code that is not OK (P10). -/
theorem witness_ParseOutcomeIsLegal :
    ((ready p8).wasReset = true ∧ (after (exec .parse (ready p8))).map (fun t => t.pkt.parseSt) = some 3)
    ∧ (ready p10).wasReset = true ∧ (after (exec .parse (ready p10))).map (fun t => t.pkt.parseSt) = some 4 := by
  decide +kernel

theorem witness_ParseReportsFirstCause : (ready p8).wasReset = true := by decide

theorem witness_PatternIsTheTwoMarkers : 7 ≤ (ready s1).len := by decide

/-- S2 with both markers right. -/
theorem witness_LengthClassDecidesAcceptance :
    (ready s2).wasReset = true ∧ 7 ≤ (ready s2).len ∧ fbRead (ready s2) 0 = 0xDD
    ∧ fbRead (ready s2) ((ready s2).len - 1) = 0x77 := by decide +kernel

/-- P8; 6 bytes; both markers right. -/
theorem witness_MarkerStepsRecordBadMarker :
    ((ready p8).wasReset = true ∧ 7 ≤ (ready p8).len
      ∧ (fbRead (ready p8) 0 ≠ 0xDD ∨ fbRead (ready p8) ((ready p8).len - 1) ≠ 0x77))
    ∧ ((ready v7).wasReset = true ∧ (ready v7).len < 7)
    ∧ (ready s1).wasReset = true ∧ fbRead (ready s1) 0 = 0xDD ∧ fbRead (ready s1) ((ready s1).len - 1) = 0x77 := by
  decide +kernel

/-- S1; 6 bytes; P8. -/
theorem witness_HeaderStepLatchesFields :
    ((ready s1).wasReset = true ∧ 7 ≤ (ready s1).len ∧ fbRead (ready s1) 0 = 0xDD
      ∧ fbRead (ready s1) ((ready s1).len - 1) = 0x77)
    ∧ ((ready v7).wasReset = true ∧ (ready v7).len < 7) ∧ (ready p8).wasReset = true ∧ fbRead (ready p8) 0 ≠ 0xDD := by
  decide +kernel

/-- S2's bytes with the latched N one too many, and exactly right. -/
theorem witness_LengthAndDataStepsDecideThePacket :
    (ready s2).wasReset = true ∧ 7 ≤ (ready s2).len ∧ fbRead (ready s2) 0 = 0xDD
    ∧ fbRead (ready s2) ((ready s2).len - 1) = 0x77
    ∧ (ready s2).len < ({ Work.zero with n := 4 } : Work).n.toNat + 7
    ∧ ({ Work.zero with n := 3 } : Work).n.toNat + 7 ≤ (ready s2).len := by decide +kernel

theorem witness_ParseStepsRefineParse : (ready s2).wasReset = true ∧ (ready p8).wasReset = true := by decide

theorem witness_VerifyAndParseAreIndependent : finishedS2.wasReset = true := by decide

/-- The second half: 5 bytes, 6 bytes. -/
theorem witness_AllResultCombinationsOccur : v6.length < 6 ∧ v7.length = 6 ∧ (3 : BitVec 3) ∈ [(1 : BitVec 3), 2, 3, 4] := by
  decide

theorem witness_CoreNeverStopsNorWritesTheFrame :
    (running p8).wasReset = true ∧ Instr.complete ∈ [Instr.run, .verify, .parse, .complete] ∧ Instr.complete ≠ .hostReset := by
  decide

/-- The largest offset, the largest length and 0. -/
theorem witness_HostWritesStoreTheirOperand :
    (ready s2).wasReset = true ∧ 510 < (ready s2).cfg.fbSize ∧ (3 : Nat) ≠ 510 ∧ 511 ≤ (ready s2).cfg.fbSize
    ∧ 0 ≤ (ready s2).cfg.fbSize := by decide +kernel

/-- The largest offset and the last element of DATA. -/
theorem witness_ReadHandsOverTheValue :
    finishedS2.wasReset = true ∧ 510 < finishedS2.cfg.fbSize ∧ 2 < finishedS2.pkt.dlen.toNat := by decide +kernel

/-- A read, a write at the largest offset, COMPLETE. -/
theorem witness_ResultsHeldUntilNextStart :
    finishedS2.wasReset = true ∧ finishedS2.busy = false ∧ finishedS2.done = true
    ∧ (Instr.quiet finishedS2.cfg (.hostRead .acc) = true ∧ Instr.hostRead .acc ≠ .hostStart)
    ∧ Instr.writes finishedS2.cfg (.hostWriteFb 510 0) = true := by decide +kernel

/-- The first offset, length, element and data length that do not exist, and a frame one byte too long. -/
theorem witness_MissingTargetsStopByName :
    finishedS2.wasReset = true ∧ finishedS2.cfg.fbSize ≤ 511 ∧ finishedS2.cfg.fbSize < 512
    ∧ finishedS2.pkt.dlen.toNat ≤ 3 ∧ 255 < (List.replicate 256 (0 : Byte)).length
    ∧ (List.replicate 255 (0 : Byte)).length ≤ 255
    ∧ finishedS2.cfg.fbSize < (List.replicate 255 (0 : Byte)).length + (List.replicate 250 (0 : Byte)).length + 7 := by
  decide +kernel

/-- The longest data and the longest frame; an offset beyond it cannot be inside the buffer, so a short frame too. -/
theorem witness_FrameWritesItsExpansion :
    State.reset.wasReset = true ∧ (List.replicate 255 (0 : Byte)).length ≤ 255
    ∧ (List.replicate 255 (0 : Byte)).length + (List.replicate 249 (0 : Byte)).length + 7 ≤ State.reset.cfg.fbSize
    ∧ ([] : List Byte).length + ([] : List Byte).length + 7 ≤ 7 := by decide +kernel

theorem witness_FrameRoundTripsThroughRun :
    State.reset.wasReset = true ∧ State.reset.busy = false ∧ (List.replicate 255 (0 : Byte)).length ≤ 255
    ∧ (List.replicate 255 (0 : Byte)).length + (List.replicate 249 (0 : Byte)).length + 7 ≤ State.reset.cfg.fbSize := by
  decide +kernel

theorem witness_ReqHwinfoVerifiesAndParses :
    ((ready s2).wasReset = true ∧ (ready s2).cfg.Wf ∧ (ready s2).busy = false)
    ∧ (running s2).wasReset = true ∧ (running s2).cfg.Wf ∧ (running s2).busy = true := by decide

theorem witness_DecodeOfEncodeIsTheFrame : FrameFields.Wf ⟨0xDD, 0x77, List.replicate 255 0xFF, [1], 0xFF02⟩ := by
  decide +kernel

theorem witness_EncodedRowsDecode :
    (encode .reqHwinfo = some s1 ∧ Instr.wellFormed .reference .reqHwinfo = true)
    ∧ encode (.frame 0x01 0x00 [0x41, 0x42, 0x43] []) = some s2
    ∧ Instr.wellFormed .reference (.frame 0x01 0x00 [0x41, 0x42, 0x43] []) = true := by decide +kernel

theorem witness_StepExecutesTheDecodedRow :
    ({ ready s2 with script := [.op .run] } : State).script = .op .run :: []
    ∧ (({ ready s1 with script := [.code s2] } : State).wasReset = true
      ∧ ({ ready s1 with script := [.code s2] } : State).script = .code s2 :: []
      ∧ s2.length ≤ (ready s1).cfg.fbSize ∧ decode s2 = .ok .parse)
    ∧ State.reset.wasReset = true ∧ 56 / 8 ≤ State.reset.cfg.fbSize
    ∧ decodeTableWord 56 0xDDA50500FFFB77 = some .reqHwinfo := by decide +kernel

theorem witness_StepRecordsRejectedFrame :
    ({ ready s1 with script := [.code p8] } : State).wasReset = true
    ∧ ({ ready s1 with script := [.code p8] } : State).script = .code p8 :: []
    ∧ p8.length ≤ (ready s1).cfg.fbSize ∧ decode p8 = .error (.badMarker true true) := by decide +kernel

theorem witness_StepWithEmptyScriptIsTheCores :
    (ready s2).wasReset = true ∧ (ready s2).script = [] ∧ (ready s2).busy = false := by decide

/-- A running operation meets the structural invariant, and its step answers. -/
theorem witness_StepKeepsStructuralRules : (running s2).Inv ∧ (after (step (running s2))).isSome = true :=
  ⟨⟨by decide, by decide +kernel, by decide, by decide +kernel, by decide⟩, by decide +kernel⟩

/-- A finished operation with a START to come is coherent, and its step answers. -/
theorem witness_StepKeepsPhaseRules :
    ({ finishedS2 with script := [.op .hostStart] } : State).Coherent
    ∧ (after (step { finishedS2 with script := [.op .hostStart] })).isSome = true := by
  refine ⟨⟨rfl, ?_, by decide, by decide, fun _ _ => ⟨by decide, by decide, by decide, by decide⟩, by decide, by decide⟩,
    by decide +kernel⟩
  intro e he
  simp only [List.mem_singleton] at he
  exact ⟨.hostStart, he, rfl⟩

end Sys2Proof.Tests
end

section
/-! PROOFS. The structural invariant is kept by every step (R7, R12, R13, R40). -/

namespace Sys2Proof.Machine

/-! Rows that compute only. -/

/-- Nothing but result and working registers differs between the two states. -/
def OnlyResults (s t : State) : Prop := t = { s with ver := t.ver, pkt := t.pkt, work := t.work }

theorem OnlyResults.ite {s t u : State} {c : Prop} [Decidable c] (ht : OnlyResults s t) (hu : OnlyResults s u) :
    OnlyResults s (if c then t else u) := by
  split
  · exact ht
  · exact hu

/-- VERIFY, PARSE and their internal steps, the rows that are no moves (R66), answer after the reset and write result
and working registers only. -/
theorem exec_of_not_isMove {i : Instr} (hi : i.isMove = false) (s : State) :
    ∃ t, exec i s = afterReset s (.next t) ∧ OnlyResults s t := by
  cases i <;> cases hi
  case verify => exact ⟨_, rfl, rfl⟩
  case parse => exact ⟨_, rfl, by rw [runParse_eq]; rfl⟩
  case verifyGuard | verifyBody | verifyAccumulate | verifyEncode | verifyFetch | verifyCompare | parseLencheck
      | parseMarkers | parseMarkerId | parseHeader | parseData => exact ⟨_, rfl, .ite rfl rfl⟩
  case parseDlencheck => exact ⟨_, rfl, .ite rfl (.ite rfl rfl)⟩

/-! What an update must leave for the invariant to survive it. -/

/-- Going from `s` to `t` keeps the structural invariant and LEN_W. -/
structure KeepsInv (s t : State) : Prop where
  inv : s.Inv → t.Inv
  cfg : t.cfg = s.cfg

theorem KeepsInv.refl (s : State) : KeepsInv s s := ⟨id, rfl⟩

theorem KeepsInv.trans {s t u : State} (h : KeepsInv s t) (k : KeepsInv t u) : KeepsInv s u :=
  ⟨k.inv ∘ h.inv, k.cfg.trans h.cfg⟩

/-- The invariant does not speak of results, working registers, the hazard mark, the script or handed-over values. -/
theorem keepsInv_unconstrained (s : State) (v : VerifyRegs) (p : ParseRegs) (w : Work) (z : Bool) (n : Nat)
    (q : List Slot) (r : Option Nat) (c : Option Word16) :
    KeepsInv s { s with ver := v, pkt := p, work := w, hazard := z, draws := n, script := q, readout := r,
                        chkValue := c } :=
  ⟨fun h => ⟨h.lenW, h.len, h.fbWf, h.fbIn, h.phase⟩, rfl⟩

theorem OnlyResults.keepsInv {s t : State} (h : OnlyResults s t) : KeepsInv s t := by
  rw [h]
  exact keepsInv_unconstrained ..

/-! One rule per operation. -/

theorem keepsInv_setScript (r : List Slot) (s : State) : KeepsInv s (setScript r s) := keepsInv_unconstrained ..

theorem keepsInv_setReadout (v : Nat) (s : State) : KeepsInv s (setReadout v s) := keepsInv_unconstrained ..

theorem keepsInv_setChk (c : Word16) (s : State) : KeepsInv s (setChk c s) := keepsInv_unconstrained ..

theorem keepsInv_drawFree (s : State) : KeepsInv s (drawFree s) := keepsInv_unconstrained ..

theorem keepsInv_storeByte {a : Nat} (v : Byte) {s : State} (ha : a < s.cfg.fbSize) : KeepsInv s (storeByte a v s) :=
  ⟨fun h => ⟨h.lenW, h.len, Memory.store_wf a v h.fbWf, Memory.store_in v h.fbIn ha, h.phase⟩, rfl⟩

theorem keepsInv_setLen {n : Nat} {s : State} (hn : n ≤ s.cfg.fbSize) : KeepsInv s (setLen n s) :=
  ⟨fun h => ⟨h.lenW, hn, h.fbWf, h.fbIn, h.phase⟩, rfl⟩

theorem keepsInv_presentFrame {f : List Byte} {s : State} (hf : f.length ≤ s.cfg.fbSize) :
    KeepsInv s (presentFrame f s) := by
  rw [presentFrame_frame]
  exact ⟨fun h => ⟨h.lenW, hf, storeBytes_wf f 0 s h.fbWf, storeBytes_in f 0 _ s h.fbIn (by simpa using hf), h.phase⟩,
    rfl⟩

theorem keepsInv_acceptStart (s : State) : KeepsInv s (acceptStart s) :=
  ⟨fun h => ⟨h.lenW, h.len, h.fbWf, h.fbIn, fun _ => by simp⟩, rfl⟩

theorem keepsInv_finish (s : State) : KeepsInv s (finish s) :=
  ⟨fun h => ⟨h.lenW, h.len, h.fbWf, h.fbIn, fun _ => by simp⟩, rfl⟩

theorem keepsInv_resetRegs (s : State) : KeepsInv s (resetRegs s) :=
  ⟨fun h => ⟨h.lenW, Nat.zero_le _, h.fbWf, h.fbIn, fun _ => by simp⟩, rfl⟩

theorem keepsInv_giveStart (s : State) : KeepsInv s (giveStart s) := by
  cases hb : s.busy with
  | false => rw [giveStart_of_idle hb]; exact keepsInv_acceptStart s
  | true => rw [giveStart_of_busy hb]; exact .refl s

/-- Completion writes results, which the invariant does not constrain, and then the flags of FINISHED. -/
theorem keepsInv_completeOp (s : State) : KeepsInv s (completeOp s) := by
  cases hb : s.busy with
  | false => rw [completeOp_of_idle hb]; exact .refl s
  | true =>
    cases hh : s.hazard with
    | false =>
      rw [completeOp_of_busy hb hh]
      have hres : OnlyResults s { s with ver := verifyRegsOf (frameOf s), pkt := parseRegsOf (frameOf s) } := rfl
      exact hres.keepsInv.trans (keepsInv_finish _)
    | true => rw [completeOp_of_hazard hb hh]; exact (keepsInv_drawFree s).trans (keepsInv_finish _)

theorem keepsInv_runOp (s : State) : KeepsInv s (runOp s) := by
  unfold runOp
  split
  · exact .refl s
  · exact (keepsInv_acceptStart s).trans (keepsInv_completeOp _)

/-! Rows and steps. -/

/-- A row that answers after the reset with a given state keeps the invariant when going to that state does. -/
theorem keepsInv_of_afterReset {s t u : State} (h : afterReset s (.next u) = .next t) (hu : KeepsInv s u) :
    KeepsInv s t := by
  obtain ⟨-, hut⟩ := afterReset_next h
  cases hut
  exact hu

/-- Every move keeps the invariant: what it writes is in range, or it would have stopped. -/
theorem exec_keepsInv_of_isMove {i : Instr} {s t : State} (hi : i.isMove = true) (h : exec i s = .next t) :
    KeepsInv s t := by
  cases i <;> cases hi
  case run => exact keepsInv_of_afterReset h (keepsInv_runOp s)
  case complete => exact keepsInv_of_afterReset h (keepsInv_completeOp s)
  case hostStart => exact keepsInv_of_afterReset h (keepsInv_giveStart s)
  case hostReset => cases h; exact keepsInv_resetRegs s
  case chk body => cases h; exact keepsInv_setChk _ s
  case reqHwinfo =>
    obtain ⟨-, hframe⟩ := afterReset_next h
    obtain ⟨hfits, hrun⟩ := withFrame_next hframe
    cases hrun
    exact (keepsInv_presentFrame hfits).trans (keepsInv_runOp _)
  case hostWriteFb a v =>
    obtain ⟨-, hwrite⟩ := afterReset_next h
    split at hwrite <;> cases hwrite
    exact keepsInv_storeByte v ‹_›
  case hostWriteLen n =>
    obtain ⟨-, hwrite⟩ := afterReset_next h
    split at hwrite <;> cases hwrite
    exact keepsInv_setLen ‹_›
  case hostRead p =>
    obtain ⟨-, hread⟩ := afterReset_next h
    split at hread <;> cases hread
    exact keepsInv_setReadout _ s
  case frame cmd status data slack =>
    obtain ⟨-, hframe⟩ := afterReset_next h
    split at hframe
    · obtain ⟨hfits, hwritten⟩ := withFrame_next hframe
      cases hwritten
      exact keepsInv_presentFrame hfits
    · cases hframe

theorem exec_keepsInv {i : Instr} {s t : State} (h : exec i s = .next t) : KeepsInv s t := by
  cases hi : i.isMove with
  | true => exact exec_keepsInv_of_isMove hi h
  | false =>
    obtain ⟨u, hu, hres⟩ := exec_of_not_isMove hi s
    exact keepsInv_of_afterReset (hu ▸ h) hres.keepsInv

theorem step_keepsInv {s t : State} (h : step s = .next t) : KeepsInv s t := by
  rcases step_cases h with ⟨-, hcore⟩ | ⟨i, r, -, hrow⟩ | ⟨f, r, -, -, hfits, hrow⟩
  · exact exec_keepsInv hcore
  · exact (keepsInv_setScript r s).trans (exec_keepsInv hrow)
  · exact ((keepsInv_setScript r s).trans (keepsInv_presentFrame hfits)).trans (exec_keepsInv hrow)

/-- Settles O59: a step is a row executed after the script, and possibly a frame that fits, has been taken up, and each
of these keeps the invariant. -/
theorem stepKeepsStructuralRules : Obligations.StepKeepsStructuralRules :=
  fun _ _ hs h => ⟨(step_keepsInv h).inv hs, (step_keepsInv h).cfg⟩

end Sys2Proof.Machine
end

section
/-! PROOFS. The state after reset, and the agreement of the results with the phase, kept by every step of the machine
(R13, R16 to R18, R22, R28, R108, R121, R127, R163). -/

namespace Sys2Proof.Machine

/-! What VERIFY and PARSE can leave. -/

/-- A frame that verifies carries the checksum computed for it (R16, R87). -/
theorem computedChecksum_of_verifyFrame {f : List Byte} (h : verifyFrame f = true) :
    computedChecksum f = receivedChecksum f := by
  unfold verifyFrame at h
  split at h
  case isTrue => cases h
  case isFalse hlen =>
    have hbytes := (bytes_eq_iff (chkOf (bodyOf f)) _ _).mp (by simpa using h)
    simpa [computedChecksum, receivedChecksum, hlen] using hbytes

/-- All that PARSE can answer: one of the three rejections, of which BadMarker names at least one marker, or a packet
whose data end before the trailer (R100, R103, R105). -/
theorem parseFrame_cases (f : List Byte) :
    parseFrame f = .error .tooShort ∨
    (∃ bs be, (bs = true ∨ be = true) ∧ parseFrame f = .error (.badMarker bs be)) ∨
    parseFrame f = .error .truncatedData ∨
    ∃ p, p.dataLength.toNat + 7 ≤ f.length ∧ parseFrame f = .ok p := by
  by_cases hshort : f.length < minParseLen
  · exact .inl (by simp [parseFrame, hshort])
  by_cases hmark : (byteAt f offStart != startMarker) || (byteAt f (f.length - 1) != endMarker)
  · exact .inr (.inl ⟨_, _, Bool.or_eq_true_iff.mp hmark, by simp [parseFrame, hshort, hmark]⟩)
  by_cases hdata : f.length < (byteAt f offDlen).toNat + frameOverhead
  · exact .inr (.inr (.inl (by simp [parseFrame, hshort, hmark, hdata])))
  · exact .inr (.inr (.inr ⟨⟨byteAt f offCommand, byteAt f offStatus, byteAt f offDlen,
      (f.drop offData).take (byteAt f offDlen).toNat⟩, Nat.le_of_not_lt hdata,
      by simp [parseFrame, hshort, hmark, hdata]⟩))

/-- The registers PARSE leaves are legal for every frame (R108). -/
theorem parseRegsOf_legal (f : List Byte) : (parseRegsOf f).Legal := by
  unfold parseRegsOf
  rcases parseFrame_cases f with h | ⟨bs, be, hflag, h⟩ | h | ⟨p, -, h⟩ <;> rw [h]
  · exact ⟨by decide, by decide, by decide, by decide⟩
  · exact ⟨.inr (.inr (.inl rfl)), fun hne => absurd rfl hne, fun _ => hflag, fun _ => ⟨rfl, rfl, rfl⟩⟩
  · exact ⟨by decide, by decide, by decide, by decide⟩
  · exact ⟨.inl rfl, fun _ => ⟨rfl, rfl⟩, fun heq => absurd (show psOk = psBadMarker from heq) (by decide),
      fun hne => absurd rfl hne⟩

/-- Data are delivered only with a frame that holds all of them and the trailer (R105). -/
theorem parseRegsOf_dlen_fits {f : List Byte} (h : 0 < (parseRegsOf f).dlen.toNat) :
    (parseRegsOf f).dlen.toNat + 7 ≤ f.length := by
  unfold parseRegsOf at h ⊢
  rcases parseFrame_cases f with hp | ⟨bs, be, -, hp⟩ | hp | ⟨p, hfits, hp⟩ <;> rw [hp] at h ⊢
  · exact absurd h (by decide)
  · exact absurd h (by simp [ParseRegs.ofError])
  · exact absurd h (by decide)
  · exact hfits

/-! The DATA view (R22). -/

@[simp] theorem dataView_length (s : State) : (dataView s).length = s.pkt.dlen.toNat := by simp [dataView, dataBytes]

theorem dataView_getElem? {s : State} {j : Nat} (h : j < s.pkt.dlen.toNat) :
    (dataView s)[j]? = some (fbRead s (4 + j)) := by
  simp [dataView, dataBytes, h, offData]

/-- Settles O32: DLEN is nonzero only for a packet, and a packet's data end before the trailer. -/
theorem dataViewStaysBelowChecksum : Obligations.DataViewStaysBelowChecksum := by
  intro s hr
  refine ⟨_, exec_parse hr, dataView_length _, fun j hj => ⟨dataView_getElem? hj, ?_⟩, fun hcode => ?_⟩
  · have hfits := parseRegsOf_dlen_fits (Nat.zero_lt_of_lt hj)
    rw [frameOf_length] at hfits
    change j < (parseRegsOf (frameOf s)).dlen.toNat at hj
    omega
  · obtain ⟨-, -, hdlen⟩ := (parseRegsOf_legal (frameOf s)).noFields hcode
    exact List.eq_nil_of_length_eq_zero (by simp [hdlen])

/-! The moves of the machine. -/

/-- One move of R128 that changes something: the host's h1 to h5, an accepted START for h3, and the core's c1, enabled
while BUSY = 1; and the evaluation of a CHK (R70). -/
inductive AtomicMove : State → State → Prop where
  | writeFb {s : State} {a : Nat} (v : Byte) (ha : a < s.cfg.fbSize) : AtomicMove s (storeByte a v s)
  | writeLen {s : State} {n : Nat} (hn : n ≤ s.cfg.fbSize) : AtomicMove s (setLen n s)
  | start {s : State} (hb : s.busy = false) : AtomicMove s (acceptStart s)
  | read (s : State) (v : Nat) : AtomicMove s (setReadout v s)
  | reset (s : State) : AtomicMove s (resetRegs s)
  | complete {s : State} (hb : s.busy = true) : AtomicMove s (completeOp s)
  | chk (s : State) (c : Word16) : AtomicMove s (setChk c s)

/-- A finite sequence of moves. -/
abbrev Moves : State → State → Prop := Relation.ReflTransGen AtomicMove

theorem moves_storeBytes (f : List Byte) (a : Nat) (s : State) (h : a + f.length ≤ s.cfg.fbSize) :
    Moves s (storeBytes a f s) := by
  induction f generalizing a s with
  | nil => exact .refl
  | cons v f ih =>
    rw [List.length_cons] at h
    exact .head (.writeFb v (by omega)) (ih (a + 1) (storeByte a v s) (by rw [storeByte_cfg]; omega))

/-- A frame is written byte by byte and then its length (log 17). -/
theorem moves_presentFrame {f : List Byte} {s : State} (h : f.length ≤ s.cfg.fbSize) : Moves s (presentFrame f s) := by
  refine (moves_storeBytes f 0 s (by omega)).tail (.writeLen ?_)
  rwa [storeBytes_frame]

theorem moves_giveStart (s : State) : Moves s (giveStart s) := by
  cases hb : s.busy with
  | false => rw [giveStart_of_idle hb]; exact .single (.start hb)
  | true => rw [giveStart_of_busy hb]

theorem moves_completeOp (s : State) : Moves s (completeOp s) := by
  cases hb : s.busy with
  | false => rw [completeOp_of_idle hb]
  | true => exact .single (.complete hb)

theorem moves_runOp (s : State) : Moves s (runOp s) := by
  unfold runOp
  split
  case isTrue => exact .refl
  case isFalse hb => exact .head (.start (by simpa using hb)) (moves_completeOp _)

/-- A row that answers after the reset with a given state is a sequence of moves when going to that state is. -/
theorem moves_of_afterReset {s t u : State} (h : afterReset s (.next u) = .next t) (hu : Moves s u) : Moves s t := by
  obtain ⟨-, hut⟩ := afterReset_next h
  cases hut
  exact hu

/-- Every row that is a move is a sequence of the moves of R128, each within its range. -/
theorem moves_of_exec {i : Instr} {s t : State} (hi : i.isMove = true) (h : exec i s = .next t) : Moves s t := by
  cases i <;> cases hi
  case run => exact moves_of_afterReset h (moves_runOp s)
  case complete => exact moves_of_afterReset h (moves_completeOp s)
  case hostStart => exact moves_of_afterReset h (moves_giveStart s)
  case hostReset => cases h; exact .single (.reset s)
  case chk body => cases h; exact .single (.chk s _)
  case reqHwinfo =>
    obtain ⟨-, hframe⟩ := afterReset_next h
    obtain ⟨hfits, hrun⟩ := withFrame_next hframe
    cases hrun
    exact (moves_presentFrame hfits).trans (moves_runOp _)
  case hostWriteFb a v =>
    obtain ⟨-, hwrite⟩ := afterReset_next h
    split at hwrite <;> cases hwrite
    exact .single (.writeFb v ‹_›)
  case hostWriteLen n =>
    obtain ⟨-, hwrite⟩ := afterReset_next h
    split at hwrite <;> cases hwrite
    exact .single (.writeLen ‹_›)
  case hostRead p =>
    obtain ⟨-, hread⟩ := afterReset_next h
    split at hread <;> cases hread
    exact .single (.read s _)
  case frame cmd status data slack =>
    obtain ⟨-, hframe⟩ := afterReset_next h
    split at hframe
    · obtain ⟨hfits, hwritten⟩ := withFrame_next hframe
      cases hwritten
      exact moves_presentFrame hfits
    · cases hframe

/-! One rule per move for the agreement of the results with the phase. -/

/-- What is handed to the host is no result. -/
theorem State.Coherent.handOver {s : State} (h : s.Coherent) (r : Option Nat) (c : Option Word16) :
    ({ s with readout := r, chkValue := c } : State).Coherent :=
  ⟨h.reset, h.moves, h.phase, h.notYet, h.legal, h.equal, h.hazard⟩

/-- A write of FB or LEN keeps the results, and marks a hazard only while BUSY = 1 (R127, R163). -/
theorem State.Coherent.write {s : State} (h : s.Coherent) (fb : Memory) (len : Nat) :
    ({ s with fb := fb, len := len, hazard := s.hazard || s.busy } : State).Coherent where
  reset := h.reset
  moves := h.moves
  phase := h.phase
  notYet := h.notYet
  legal hd hz := h.legal hd (Bool.or_eq_false_iff.mp hz).1
  equal hd hz := h.equal hd (Bool.or_eq_false_iff.mp hz).1
  hazard hz := (Bool.or_eq_true_iff.mp hz).elim h.hazard .inl

/-- An accepted START clears the results (R121). -/
theorem State.Coherent.acceptStart {s : State} (h : s.Coherent) : (acceptStart s).Coherent :=
  ⟨h.reset, h.moves, by simp, fun _ => ⟨rfl, rfl⟩, by simp, by simp, by simp⟩

/-- Reset clears the results (R28, R160). -/
theorem coherent_resetRegs {s : State} (h : s.scriptOfMoves) : (resetRegs s).Coherent :=
  ⟨rfl, h, by simp, fun _ => ⟨rfl, rfl⟩, by simp, by simp, by simp⟩

/-- Completion writes the results of the frame in the buffer, or, after a hazard, results of which nothing is known
(R122, R163). -/
theorem State.Coherent.completeOp {s : State} (h : s.Coherent) (hb : s.busy = true) : (completeOp s).Coherent := by
  cases hh : s.hazard with
  | false =>
    rw [completeOp_of_busy hb hh]
    exact ⟨h.reset, h.moves, by simp, by simp, fun _ _ => parseRegsOf_legal _,
      fun _ _ => computedChecksum_of_verifyFrame, by simp⟩
  | true =>
    rw [completeOp_of_hazard hb hh]
    exact ⟨h.reset, h.moves, by simp, by simp, by simp [hh], by simp [hh], by simp⟩

theorem State.Coherent.atomicMove {s t : State} (h : s.Coherent) (hmove : AtomicMove s t) : t.Coherent := by
  cases hmove with
  | writeFb v ha => exact h.write _ _
  | writeLen hn => exact h.write _ _
  | start hb => exact h.acceptStart
  | read v => exact h.handOver _ _
  | reset => exact coherent_resetRegs h.moves
  | complete hb => exact h.completeOp hb
  | chk c => exact h.handOver _ _

theorem State.Coherent.moved {s t : State} (h : s.Coherent) (hmoves : Moves s t) : t.Coherent := by
  induction hmoves with
  | refl => exact h
  | tail _ hmove ih => exact ih.atomicMove hmove

/-- Taking the first entry off the script leaves a coherent state. -/
theorem State.Coherent.dropEntry {s : State} {e : Slot} {r : List Slot} (h : s.Coherent) (hs : s.script = e :: r) :
    (setScript r s).Coherent :=
  ⟨h.reset, fun x hx => h.moves x (by rw [hs]; exact List.mem_cons_of_mem e hx), h.phase, h.notYet, h.legal, h.equal,
    h.hazard⟩

/-- The first entry of a script of moves is a row that is a move. -/
theorem State.scriptOfMoves.head {s : State} {e : Slot} {r : List Slot} (h : s.scriptOfMoves) (hs : s.script = e :: r) :
    ∃ i, e = .op i ∧ i.isMove = true :=
  h e (by rw [hs]; exact List.mem_cons_self)

/-- Settles O60: a step executes a row that is a move, hence a sequence of moves of R128, and each of these keeps the
results in agreement with the phase. -/
theorem stepKeepsPhaseRules : Obligations.StepKeepsPhaseRules := by
  intro s t hs hstep
  rcases step_cases hstep with ⟨-, hcore⟩ | ⟨i, r, hscript, hrow⟩ | ⟨f, r, hscript, -, -, -⟩
  · exact hs.moved (moves_of_exec rfl hcore)
  · obtain ⟨_, ⟨⟩, hmove⟩ := hs.moves.head hscript
    exact (hs.dropEntry hscript).moved (moves_of_exec hmove hrow)
  · obtain ⟨_, ⟨⟩, -⟩ := hs.moves.head hscript

/-! The state after reset. -/

theorem exec_hostStart {s : State} (h : s.wasReset = true) : exec .hostStart s = .next (giveStart s) :=
  afterReset_of_reset h _

/-- Settles O1: the reset values are those of the definition, and an accepted START clears the results to the same. -/
theorem resetValues : Obligations.ResetValues := by
  refine ⟨rfl, rfl, rfl, rfl, rfl, rfl, rfl, rfl, rfl, rfl, rfl, rfl, rfl, fun _ => rfl, fun s hr hb => ?_⟩
  exact ⟨acceptStart s, by rw [exec_hostStart hr, giveStart_of_idle hb], acceptStart_ver s, acceptStart_pkt s⟩

theorem inv_reset : State.reset.Inv where
  lenW := by decide
  len := Nat.zero_le _
  fbWf := reset_memory_wf
  fbIn _ hc := absurd hc List.not_mem_nil
  phase _ := by decide

/-- Settles O58: the state after reset has an empty buffer and script, and is what HOST.RESET leaves of itself. -/
theorem resetMeetsBothInvariants : Obligations.ResetMeetsBothInvariants :=
  ⟨inv_reset, coherent_resetRegs (s := State.reset) fun _ he => absurd he List.not_mem_nil⟩

end Sys2Proof.Machine
end

section
/-! PROOFS. Host operands that name nothing that exists (R12, R22, R40, R70, R128; log 14, log 18). -/

namespace Sys2Proof.Machine

/-! What does not fit, and what there is not to read. -/

theorem withFrame_of_too_long {f : List Byte} {s : State} (h : s.cfg.fbSize < f.length)
    (k : State → Host.Outcome State Fault Refusal) : withFrame f s k = .fault (.lengthTooWide f.length) :=
  if_neg (Nat.not_le.mpr h)

theorem portValue_fb_beyond {s : State} {a : Nat} (h : s.cfg.fbSize ≤ a) :
    portValue (.fb a) s = .error (.noSuchOffset a) :=
  if_neg (Nat.not_lt.mpr h)

theorem portValue_data_beyond {s : State} {j : Nat} (h : s.pkt.dlen.toNat ≤ j) :
    portValue (.data j) s = .error (.noSuchData j) :=
  if_neg (Nat.not_lt.mpr h)

/-! The rows with operands, after the reset. -/

theorem exec_hostWriteFb {s : State} (h : s.wasReset = true) (a : Nat) (v : Byte) :
    exec (.hostWriteFb a v) s =
      if a < s.cfg.fbSize then .next (storeByte a v s) else .fault (.noSuchOffset a) :=
  afterReset_of_reset h _

theorem exec_hostWriteLen {s : State} (h : s.wasReset = true) (n : Nat) :
    exec (.hostWriteLen n) s = if n ≤ s.cfg.fbSize then .next (setLen n s) else .fault (.lengthTooWide n) :=
  afterReset_of_reset h _

theorem exec_hostRead_of_error {s : State} {p : Port} {e : Fault} (h : s.wasReset = true)
    (hp : portValue p s = .error e) : exec (.hostRead p) s = .fault e :=
  (afterReset_of_reset h _).trans (by rw [hp])

theorem exec_frame_of_long_data {cmd status : Byte} {data slack : List Byte} {s : State} (h : s.wasReset = true)
    (hd : 255 < data.length) :
    exec (.frame cmd status data slack) s = .refused (.frameDataTooLong data.length) :=
  (afterReset_of_reset h _).trans (if_neg (Nat.not_le.mpr hd))

theorem exec_frame_of_too_long {cmd status : Byte} {data slack : List Byte} {s : State} (h : s.wasReset = true)
    (hd : data.length ≤ 255) (hl : s.cfg.fbSize < data.length + slack.length + 7) :
    exec (.frame cmd status data slack) s = .fault (.lengthTooWide (data.length + slack.length + 7)) := by
  rw [← frameBytes_length cmd status] at hl ⊢
  exact (afterReset_of_reset h _).trans ((if_pos hd).trans (withFrame_of_too_long hl _))

/-- Settles O47: each row tests its operand against FB_SIZE, DLEN or 255 before it does anything. -/
theorem missingTargetsStopByName : Obligations.MissingTargetsStopByName := by
  intro s hr
  refine ⟨fun a v ha => ?_, fun n hn => ?_, fun a ha => ?_, fun j hj => ?_, fun _ _ _ _ hd => ?_,
    fun _ _ _ _ hd hl => ?_⟩
  · rw [exec_hostWriteFb hr, if_neg (Nat.not_lt.mpr ha)]
  · rw [exec_hostWriteLen hr, if_neg (Nat.not_le.mpr hn)]
  · exact exec_hostRead_of_error hr (portValue_fb_beyond ha)
  · exact exec_hostRead_of_error hr (portValue_data_beyond hj)
  · exact exec_frame_of_long_data hr hd
  · exact exec_frame_of_too_long hr hd hl

end Sys2Proof.Machine
end

section
/-! PROOFS. The frame as bytes: what PARSE accepts, the fields of an encoded frame, the pattern, the length classes and
the rows that bytes select (R60 to R70). -/

namespace Sys2Proof

/-! PARSE of a list of bytes. -/

/-- All that PARSE accepts, and as which packet (R101 to R107). -/
theorem parseFrame_eq_ok_iff {f : List Byte} {p : Packet} :
    parseFrame f = .ok p ↔
      7 ≤ f.length ∧ byteAt f 0 = startMarker ∧ byteAt f (f.length - 1) = endMarker
        ∧ (byteAt f 3).toNat + 7 ≤ f.length
        ∧ ⟨byteAt f 1, byteAt f 2, byteAt f 3, (f.drop 4).take (byteAt f 3).toNat⟩ = p := by
  unfold parseFrame
  by_cases hlen : f.length < minParseLen
  · rw [if_pos hlen]
    simp only [minParseLen] at hlen
    simp
    omega
  rw [if_neg hlen]
  simp only [minParseLen, not_lt] at hlen
  by_cases hmark : byteAt f 0 = startMarker ∧ byteAt f (f.length - 1) = endMarker
  · by_cases hdata : f.length < (byteAt f 3).toNat + 7
    · simp [offStart, offDlen, frameOverhead, hmark, hdata]
    · simp [offStart, offDlen, offCommand, offStatus, offData, frameOverhead, hmark, hdata, hlen,
        Nat.le_of_not_lt hdata]
  · have hwrong : (byteAt f 0 != startMarker || byteAt f (f.length - 1) != endMarker) = true := by
      simpa [← not_and_or] using hmark
    simp only [offStart, hwrong, if_true, reduceCtorEq, false_iff]
    tauto

/-! The fields of an encoded frame. -/

/-- The length byte can hold the number of data bytes (R62). -/
theorem lengthByte_toNat {n : Nat} (h : n ≤ 255) : (BitVec.ofNat 8 n).toNat = n := Nat.mod_eq_of_lt (by omega)

theorem byteAt_encodeFrame_last (x : FrameFields) :
    byteAt (encodeFrame x) ((encodeFrame x).length - 1) = endMarker := by
  rw [encodeFrame_length]
  exact byteAt_encodeFrame_trailer x 2

/-- Behind the header stand data, slack and trailer (R60). -/
theorem drop_encodeFrame_header (x : FrameFields) :
    (encodeFrame x).drop 4 = x.data ++ (x.slack ++ [hiByte x.checksum, loByte x.checksum, endMarker]) := by
  simp [encodeFrame]

theorem encodeFrame_data (x : FrameFields) : ((encodeFrame x).drop 4).take x.data.length = x.data := by
  rw [drop_encodeFrame_header, List.take_left]

theorem encodeFrame_slack (x : FrameFields) :
    ((encodeFrame x).drop (4 + x.data.length)).take x.slack.length = x.slack := by
  rw [← List.drop_drop, drop_encodeFrame_header, List.drop_left, List.take_left]

/-- The body runs from the status byte to the last slack byte (R65, R82). -/
theorem bodyOf_encodeFrame (x : FrameFields) :
    bodyOf (encodeFrame x) = [x.status, BitVec.ofNat 8 x.data.length] ++ x.data ++ x.slack := by
  have hdrop : (encodeFrame x).drop bodyFirst
      = ([x.status, BitVec.ofNat 8 x.data.length] ++ x.data ++ x.slack)
        ++ [hiByte x.checksum, loByte x.checksum, endMarker] := by simp [encodeFrame, bodyFirst]
  rw [bodyOf, hdrop, encodeFrame_length]
  refine List.take_left' ?_
  simp [bodyFirst, trailerLen]

theorem beWord_bytes (v : Word16) : beWord (hiByte v) (loByte v) = v := ((bytes_eq_iff v _ _).mp ⟨rfl, rfl⟩).symm

/-- The two bytes before the end marker are the checksum, big-endian (R63). -/
theorem byteAt_encodeFrame_checksum (x : FrameFields) :
    byteAt (encodeFrame x) ((encodeFrame x).length - 3) = hiByte x.checksum
      ∧ byteAt (encodeFrame x) ((encodeFrame x).length - 2) = loByte x.checksum := by
  rw [encodeFrame_length]
  exact ⟨byteAt_encodeFrame_trailer x 0, byteAt_encodeFrame_trailer x 1⟩

theorem not_encodeFrame_length_lt_minVerifyLen (x : FrameFields) : ¬ (encodeFrame x).length < minVerifyLen := by
  rw [encodeFrame_length, minVerifyLen]
  omega

theorem receivedChecksum_encodeFrame (x : FrameFields) : receivedChecksum (encodeFrame x) = x.checksum := by
  obtain ⟨hhi, hlo⟩ := byteAt_encodeFrame_checksum x
  rw [receivedChecksum, if_neg (not_encodeFrame_length_lt_minVerifyLen x), hhi, hlo, beWord_bytes]

/-- An encoded frame verifies exactly when it carries the checksum of its body (R87). -/
theorem verifyFrame_encodeFrame (x : FrameFields) :
    verifyFrame (encodeFrame x) = true ↔
      x.checksum = chkOf ([x.status, BitVec.ofNat 8 x.data.length] ++ x.data ++ x.slack) := by
  obtain ⟨hhi, hlo⟩ := byteAt_encodeFrame_checksum x
  rw [verifyFrame, if_neg (not_encodeFrame_length_lt_minVerifyLen x), hhi, hlo, bodyOf_encodeFrame, Bool.and_eq_true,
    beq_iff_eq, beq_iff_eq, bytes_eq_iff, beWord_bytes, eq_comm]

/-- The packet an encoded frame is parsed to. -/
theorem parseFrame_encodeFrame {x : FrameFields} (h : x.Wf) :
    parseFrame (encodeFrame x) = .ok ⟨x.command, x.status, BitVec.ofNat 8 x.data.length, x.data⟩ := by
  have hdlen : byteAt (encodeFrame x) 3 = BitVec.ofNat 8 x.data.length := rfl
  have hlen := encodeFrame_length x
  refine parseFrame_eq_ok_iff.mpr ⟨by omega, rfl, byteAt_encodeFrame_last x, ?_, ?_⟩
  · rw [hdlen, lengthByte_toNat h]
    omega
  · rw [hdlen, lengthByte_toNat h, encodeFrame_data]
    rfl

/-- Settles O52: PARSE gives the header and the data back, the slack lies between data and trailer, and the trailer
holds the checksum. -/
theorem decodeOfEncodeIsTheFrame : Obligations.DecodeOfEncodeIsTheFrame := by
  intro x h
  have hslack : (encodeFrame x).length - frameOverhead - x.data.length = x.slack.length := by
    rw [encodeFrame_length, frameOverhead]
    omega
  simp only [decodeFrame, parseFrame_encodeFrame h, lengthByte_toNat h, hslack, offData, encodeFrame_slack,
    receivedChecksum_encodeFrame]

/-! The pattern (R61). -/

/-- A mask that ends in zeros compares what stands before them. -/
theorem append_and_append_zero_eq_iff {m n : Nat} (x mask v : BitVec m) (y : BitVec n) :
    (x ++ y) &&& (mask ++ 0#n) = v ++ 0#n ↔ x &&& mask = v := by
  rw [BitVec.and_append, BitVec.and_zero, BitVec.append_left_inj]

/-- A mask that begins with zeros compares what stands behind them. -/
theorem append_and_zero_append_eq_iff {m n : Nat} (x : BitVec m) (y mask v : BitVec n) :
    (x ++ y) &&& (0#m ++ mask) = 0#m ++ v ↔ y &&& mask = v := by
  rw [BitVec.and_append, BitVec.and_zero, BitVec.append_right_inj]

/-- The mask on HDR keeps its first byte. -/
theorem hdrWord_masked_eq_iff (f : List Byte) : hdrWord f &&& 0xFF000000 = 0xDD000000 ↔ byteAt f 0 = startMarker := by
  change (byteAt f 0 ++ byteAt f 1 ++ byteAt f 2 ++ byteAt f 3) &&& (BitVec.allOnes 8 ++ 0#8 ++ 0#8 ++ 0#8)
    = startMarker ++ 0#8 ++ 0#8 ++ 0#8 ↔ _
  simp only [append_and_append_zero_eq_iff, BitVec.and_allOnes]

/-- The mask on TRL keeps its last byte. -/
theorem trlWord_masked_eq_iff (f : List Byte) :
    trlWord f &&& 0x0000FF = 0x000077 ↔ byteAt f (f.length - 1) = endMarker := by
  change (byteAt f (f.length - 3) ++ byteAt f (f.length - 2) ++ byteAt f (f.length - 1)) &&& (0#16 ++ BitVec.allOnes 8)
    = 0#16 ++ endMarker ↔ _
  rw [append_and_zero_append_eq_iff, BitVec.and_allOnes]

/-- The pattern is a matter of the first and the last byte. -/
theorem matchesPattern_iff (f : List Byte) :
    matchesPattern f = true ↔ byteAt f 0 = startMarker ∧ byteAt f (f.length - 1) = endMarker := by
  rw [matchesPattern, Bool.and_eq_true, beq_iff_eq, beq_iff_eq, hdrWord_masked_eq_iff, trlWord_masked_eq_iff]

/-! The length classes (R64). -/

/-- The classes are the three orders of the length and N + 7. -/
theorem lengthClass_iff (f : List Byte) :
    (lengthClass f = .canonical ↔ f.length = (byteAt f 3).toNat + 7)
      ∧ (lengthClass f = .slack ↔ (byteAt f 3).toNat + 7 < f.length)
      ∧ (lengthClass f = .truncated ↔ f.length < (byteAt f 3).toNat + 7) := by
  rcases lt_trichotomy f.length ((byteAt f 3).toNat + 7) with h | h | h
  · simp [lengthClass, offDlen, frameOverhead, h, h.ne, h.not_gt]
  · simp [lengthClass, offDlen, frameOverhead, h]
  · simp [lengthClass, offDlen, frameOverhead, h, h.ne', h.not_gt]

/-! Rows and bytes (R66, R68). -/

/-- A frame that PARSE accepts matches its pattern and selects PARSE, or REQ_HWINFO if it is the literal frame. -/
theorem decode_of_parseFrame_ok {f : List Byte} {p : Packet} (h : parseFrame f = .ok p) :
    decode f = .ok (if f = reqHwinfoBytes then .reqHwinfo else .parse) ∧ matchesPattern f = true := by
  obtain ⟨-, hstart, hend, -, -⟩ := parseFrame_eq_ok_iff.mp h
  refine ⟨?_, (matchesPattern_iff f).mpr ⟨hstart, hend⟩⟩
  unfold decode
  split
  · rfl
  · rw [h]

/-- The literal request frame is FRAME's expansion for command 0xA5, status 0x05 and no data (R68, R70). -/
theorem reqHwinfoBytes_eq_frameBytes : reqHwinfoBytes = frameBytes 0xA5 0x05 [] [] := by decide

/-- The bytes of a row are a well-formed encoded frame. -/
theorem exists_encodeFrame_of_encode {c : Config} {i : Instr} {bytes : List Byte} (h : encode i = some bytes)
    (hw : i.wellFormed c = true) : ∃ x : FrameFields, x.Wf ∧ encodeFrame x = bytes := by
  cases i <;> cases h
  case reqHwinfo => exact ⟨_, Nat.zero_le _, reqHwinfoBytes_eq_frameBytes.symm⟩
  case frame cmd status data slack =>
    obtain ⟨hdata, -⟩ := of_decide_eq_true hw
    exact ⟨_, hdata, rfl⟩

/-- Settles O53: a row's bytes are an encoded frame, which PARSE accepts. -/
theorem encodedRowsDecode : Obligations.EncodedRowsDecode := by
  intro c i bytes h hw
  obtain ⟨x, hx, rfl⟩ := exists_encodeFrame_of_encode h hw
  exact decode_of_parseFrame_ok (parseFrame_encodeFrame hx)

/-- Settles O54: each word is evaluated. -/
theorem specWordsDecode : Obligations.SpecWordsDecode :=
  ⟨by decide, by decide, by decide, by decide, by decide, by decide⟩

end Sys2Proof
end

section
/-! PROOFS. The frame in the buffer: its pattern and class, CHK, FRAME and REQ_HWINFO (R61, R64, R68, R70, R111). -/

namespace Sys2Proof.Machine

/-! The pattern and the length classes of the frame in the buffer. -/

/-- Settles O35: the pattern of a frame of at least 7 bytes, its bytes read from FB. -/
theorem patternIsTheTwoMarkers : Obligations.PatternIsTheTwoMarkers := by
  intro s h
  rw [matchesPattern_iff, frameOf_length, byteAt_frameOf s (by omega : 0 < s.len),
    byteAt_frameOf s (by omega : s.len - 1 < s.len)]
  rfl

/-- With both markers right only the declared length can fail (R105). -/
theorem parseRegsOf_of_markers {s : State} (h : 7 ≤ s.len) (hstart : fbRead s 0 = 0xDD)
    (hend : fbRead s (s.len - 1) = 0x77) :
    parseRegsOf (frameOf s) =
      if s.len < (fbRead s 3).toNat + 7 then .ofError .truncatedData
      else ⟨psOk, false, false, fbRead s 1, fbRead s 2, fbRead s 3⟩ := by
  rw [parseRegsOf, parseFrame_long h, hstart, hend]
  by_cases hdata : s.len < (fbRead s 3).toNat + 7 <;> simp [hdata, ParseRegs.ofPacket]

/-- Settles O36: the classes are the three orders of LEN and N + 7, and PARSE tests the last of them. -/
theorem lengthClassDecidesAcceptance : Obligations.LengthClassDecidesAcceptance := by
  intro s hr h
  obtain ⟨hcanonical, hslack, htruncated⟩ := lengthClass_iff (frameOf s)
  rw [frameOf_length, byteAt_frameOf s (by omega : 3 < s.len)] at hcanonical hslack htruncated
  refine ⟨hcanonical, hslack, htruncated, fun hstart hend => ⟨_, exec_parse hr, ?_⟩⟩
  simp only [htruncated, parseRegsOf_of_markers h hstart hend]
  split <;> rfl

/-! CHK and FRAME (R70). -/

/-- Settles O48: CHK hands over the checksum of its bytes. -/
theorem chkIsTheNegatedSum : Obligations.ChkIsTheNegatedSum := fun body _ => ⟨chkOf body, rfl, chkOf_toNat body⟩

/-- Settles O49: FRAME writes its expansion as WRITE_FRAME does. -/
theorem frameWritesItsExpansion : Obligations.FrameWritesItsExpansion := by
  intro cmd status data slack s hr hd hl
  have hlen := frameBytes_length cmd status data slack
  refine ⟨_, exec_frame hr hd hl, ?_, frameOf_presentFrame _ s, fun b hb => ?_⟩
  · rw [presentFrame_frame, hlen]
  · exact fbRead_presentFrame_beyond _ s (by omega)

/-- The DATA view is a stretch of the frame, as long as it ends inside it (R22, R106). -/
theorem dataBytes_eq_take_drop_frameOf {s : State} {n : Nat} (h : n + 4 ≤ s.len) :
    dataBytes s n = ((frameOf s).drop 4).take n := by
  apply List.ext_getElem
  · simp [dataBytes]
    omega
  · intro j _ _
    simp [dataBytes, frameOf, offData]

/-- After the parse of FRAME's expansion the DATA view is the data it was built from. -/
theorem dataView_of_frameBytes {s : State} {cmd status : Byte} {data slack : List Byte} (hd : data.length ≤ 255)
    (hf : frameOf s = frameBytes cmd status data slack) (hp : s.pkt.dlen = BitVec.ofNat 8 data.length) :
    dataView s = data := by
  have hlen : s.len = data.length + slack.length + 7 := by rw [← frameOf_length, hf, frameBytes_length]
  rw [dataView, hp, lengthByte_toNat hd, dataBytes_eq_take_drop_frameOf (by omega), hf]
  exact encodeFrame_data ⟨cmd, status, data, slack, _⟩

theorem parseRegsOf_encodeFrame {x : FrameFields} (hx : x.Wf) :
    parseRegsOf (encodeFrame x) = ⟨psOk, false, false, x.command, x.status, BitVec.ofNat 8 x.data.length⟩ := by
  rw [parseRegsOf, parseFrame_encodeFrame hx]
  rfl

/-- FRAME's expansion carries the checksum of its own body (R70, R87). -/
theorem verifyFrame_frameBytes (cmd status : Byte) (data slack : List Byte) :
    verifyFrame (frameBytes cmd status data slack) = true := (verifyFrame_encodeFrame _).mpr rfl

/-! RUN on a frame just written. -/

@[simp] theorem presentFrame_busy (f : List Byte) (s : State) : (presentFrame f s).busy = s.busy := by
  rw [presentFrame_frame]

@[simp] theorem presentFrame_wasReset (f : List Byte) (s : State) : (presentFrame f s).wasReset = s.wasReset := by
  rw [presentFrame_frame]

/-- The results are those of the frame written. -/
theorem runOp_presentFrame {f : List Byte} {s : State} (hb : s.busy = false) :
    runOp (presentFrame f s) = { presentFrame f s with ver := verifyRegsOf f, pkt := parseRegsOf f, busy := false,
                                                       done := true, work := .zero, hazard := false } := by
  rw [runOp_idle (by rw [presentFrame_busy, hb]), frameOf_presentFrame]

/-- Settles O50: the RUN finds the expansion in the buffer, which verifies and parses as an encoded frame. -/
theorem frameRoundTripsThroughRun : Obligations.FrameRoundTripsThroughRun := by
  intro cmd status data slack s hr hb hd hl
  have hverify := verifyFrame_frameBytes cmd status data slack
  have hparse : parseRegsOf (frameBytes cmd status data slack)
      = ⟨psOk, false, false, cmd, status, BitVec.ofNat 8 data.length⟩ := parseRegsOf_encodeFrame hd
  have hrun := exec_run (s := presentFrame (frameBytes cmd status data slack) s) (by rw [presentFrame_wasReset, hr])
  refine ⟨_, (execAll_cons (exec_frame hr hd hl) _).trans (execAll_cons hrun []), ?_⟩
  rw [runOp_presentFrame hb, hparse]
  exact ⟨rfl, rfl, hverify, computedChecksum_of_verifyFrame hverify, rfl, lengthByte_toNat hd,
    dataView_of_frameBytes hd ((frameOf_congr rfl rfl).trans (frameOf_presentFrame _ s)) rfl⟩

/-! REQ_HWINFO (R68). -/

theorem runOp_of_busy {s : State} (h : s.busy = true) : runOp s = s := by rw [runOp, if_pos h]

/-- RUN writes neither FB nor LEN (R42). -/
theorem runOp_fb_len (s : State) : (runOp s).fb = s.fb ∧ (runOp s).len = s.len := by
  cases hb : s.busy with
  | false => rw [runOp_idle hb]; exact ⟨rfl, rfl⟩
  | true => rw [runOp_of_busy hb]; exact ⟨rfl, rfl⟩

/-- The literal frame fits every buffer (R7). -/
theorem reqHwinfoBytes_fits {c : Config} (h : c.Wf) : reqHwinfoBytes.length ≤ c.fbSize := by
  have hpow : 2 ^ 9 ≤ 2 ^ c.lenW := Nat.pow_le_pow_right (by decide) h
  change 7 ≤ 2 ^ c.lenW - 1
  omega

theorem exec_reqHwinfo {s : State} (h : s.wasReset = true) (hc : s.cfg.Wf) :
    exec .reqHwinfo s = .next (runOp (presentFrame reqHwinfoBytes s)) :=
  (afterReset_of_reset h _).trans (withFrame_of_fits (reqHwinfoBytes_fits hc) _)

/-- Settles O51: the RUN finds the literal frame in the buffer, or is ignored while BUSY = 1. -/
theorem reqHwinfoVerifiesAndParses : Obligations.ReqHwinfoVerifiesAndParses := by
  intro s hr hc
  obtain ⟨hfb, hlen⟩ := runOp_fb_len (presentFrame reqHwinfoBytes s)
  refine ⟨_, exec_reqHwinfo hr hc, ?_, fun b hb => ?_, fun hb => ?_, fun hb => ?_⟩
  · rw [frameOf_congr hfb hlen, frameOf_presentFrame]
    rfl
  · rw [fbRead_congr hfb, fbRead_presentFrame_beyond _ s hb]
  · have hver : verifyRegsOf reqHwinfoBytes = ⟨true, 0xFFFB, 0xFFFB⟩ := by decide
    have hpkt : parseRegsOf reqHwinfoBytes = ⟨1, false, false, 0xA5, 0x05, 0x00⟩ := by decide
    rw [runOp_presentFrame hb, hver, hpkt, presentFrame_frame]
    exact ⟨rfl, rfl⟩
  · rw [runOp_of_busy (by rw [presentFrame_busy, hb]), presentFrame_frame, hb, Bool.or_true]
    rfl

end Sys2Proof.Machine
end

section
/-! PROOFS. VERIFY: the checksum as a wide sum and as a wrapping register, the results of VERIFY in terms of FB, and its
six internal steps (R80 to R91). -/

namespace Sys2Proof.Machine

/-! The checksum of a list of bytes (R83, R84). -/

theorem sumBytes_cons (b : Byte) (body : List Byte) : sumBytes (b :: body) = b.toNat + sumBytes body := rfl

theorem sumBytes_le (body : List Byte) : sumBytes body ≤ 255 * body.length := by
  induction body with
  | nil => exact Nat.le_refl 0
  | cons b body ih =>
    have hb := b.isLt
    rw [sumBytes_cons, List.length_cons]
    omega

/-- From any value, the wrapping register loses the sum of the bytes modulo 65536. -/
theorem foldl_sub_eq_sub_sumBytes (acc : Word16) (body : List Byte) :
    body.foldl (fun acc b => acc - b.zeroExtend 16) acc = acc - BitVec.ofNat 16 (sumBytes body) := by
  induction body generalizing acc with
  | nil => simp [sumBytes]
  | cons b body ih =>
    rw [List.foldl_cons, ih, sumBytes_cons, BitVec.ofNat_add, BitVec.ofNat_toNat, BitVec.sub_sub]

/-- The 16-bit register with silent wrap refines the wide formula (R84). -/
theorem accumulate_eq_chkOf (body : List Byte) : accumulate body = chkOf body := by
  have hchk := chkOf_toNat body
  rw [accumulate, foldl_sub_eq_sub_sumBytes]
  apply BitVec.eq_of_toNat_eq
  simp only [BitVec.ofNat_eq_ofNat, BitVec.toNat_sub, BitVec.toNat_ofNat]
  omega

theorem sumBytes_perm {body other : List Byte} (h : body.Perm other) : sumBytes body = sumBytes other :=
  (h.map BitVec.toNat).sum_eq

/-- Settles O19: the register refines the wide formula, and a sum does not see the order of its terms. -/
theorem wrappingAccumulatorEqualsWideSum : Obligations.WrappingAccumulatorEqualsWideSum := by
  intro body
  rw [accumulate_eq_chkOf]
  refine ⟨chkOf_toNat body, rfl, fun other hperm => ?_⟩
  rw [accumulate_eq_chkOf, chkOf, chkOf, sumBytes_perm hperm]

/-! What VERIFY sees of the buffer. -/

theorem frameOf_eq_of_fbRead_eq {s t : State} (hl : s.len = t.len) (h : ∀ a, a < s.len → fbRead s a = fbRead t a) :
    frameOf s = frameOf t := by
  rw [frameOf, frameOf, ← hl]
  exact List.map_congr_left fun a ha => h a (List.mem_range.mp ha)

/-- The body is the bytes at `2..LEN-4` (R82). -/
theorem bodyOf_frameOf_eq_of_fbRead_eq {s t : State} (hl : s.len = t.len)
    (h : ∀ a, 2 ≤ a → a + 4 ≤ s.len → fbRead s a = fbRead t a) : bodyOf (frameOf s) = bodyOf (frameOf t) := by
  rw [bodyOf_frameOf, bodyOf_frameOf, ← hl]
  refine List.map_congr_left fun k hk => h (2 + k) (by omega) ?_
  have := List.mem_range.mp hk
  omega

theorem sumBytes_bodyOf_frameOf (s : State) :
    sumBytes (bodyOf (frameOf s)) = ((List.range (s.len - 5)).map fun k => (fbRead s (2 + k)).toNat).sum := by
  rw [bodyOf_frameOf, sumBytes_map_range]

theorem bodyFrom_bodyFirst (s : State) : bodyFrom s bodyFirst = bodyOf (frameOf s) := by
  rw [bodyFrom, bodyOf_frameOf, Nat.sub_sub]
  rfl

/-- Settles O10: the results of RUN are functions of the frame. -/
theorem resultsDependOnFrameAlone : Obligations.ResultsDependOnFrameAlone := by
  intro s t hs ht hsb htb hl h
  refine ⟨_, _, exec_run hs, exec_run ht, ?_⟩
  rw [runOp_idle hsb, runOp_idle htb, frameOf_eq_of_fbRead_eq hl h]
  exact ⟨rfl, rfl⟩

/-! The results of VERIFY from 6 bytes on. -/

/-- ACC is the checksum of the body (R83). -/
theorem verifyRegsOf_acc {s : State} (h : 6 ≤ s.len) :
    (verifyRegsOf (frameOf s)).acc = chkOf (bodyOf (frameOf s)) := by rw [verifyRegsOf_long h]

/-- CHK_RX is the pair of bytes before the end marker (R86). -/
theorem verifyRegsOf_chkRx {s : State} (h : 6 ≤ s.len) :
    (verifyRegsOf (frameOf s)).chkRx = beWord (fbRead s (s.len - 3)) (fbRead s (s.len - 2)) := by
  rw [verifyRegsOf_long h]

/-- VERIFY_OK compares byte for byte (R87). -/
theorem verifyRegsOf_verifyOk_iff {s : State} (h : 6 ≤ s.len) :
    (verifyRegsOf (frameOf s)).verifyOk = true ↔
      hiByte (chkOf (bodyOf (frameOf s))) = fbRead s (s.len - 3)
        ∧ loByte (chkOf (bodyOf (frameOf s))) = fbRead s (s.len - 2) := by
  rw [verifyRegsOf_long h, Bool.and_eq_true, beq_iff_eq, beq_iff_eq]

/-- Settles O16: ACC is the checksum of the body, whose sum runs over the offsets `2..LEN-4`. -/
theorem verifyComputesChecksum : Obligations.VerifyComputesChecksum := by
  intro s hr h
  have hacc := chkOf_toNat (bodyOf (frameOf s))
  rw [← verifyRegsOf_acc h, sumBytes_bodyOf_frameOf] at hacc
  refine ⟨_, exec_verify hr, rfl, hacc, ?_⟩
  change (_ + (verifyRegsOf (frameOf s)).acc.toNat) % 65536 = 0
  omega

/-- Settles O17: the comparison byte by byte is one of the words the bytes encode. -/
theorem verifyComparesByteForByte : Obligations.VerifyComparesByteForByte := by
  intro s hr h
  refine ⟨_, exec_verify hr, rfl, ?_⟩
  simp only [verifyRegsOf_verifyOk_iff h, verifyRegsOf_acc h, verifyRegsOf_chkRx h]
  exact ⟨beWord_toNat _ _, trivial, bytes_eq_iff _ _ _⟩

/-- Settles O25: below 6 bytes nothing is read, and from 6 bytes on the body and the two checksum bytes are. -/
theorem verifyIgnoresMarkersAndCommand : Obligations.VerifyIgnoresMarkersAndCommand := by
  intro s t hs ht hl h
  refine ⟨_, _, exec_verify hs, exec_verify ht, ?_⟩
  change verifyRegsOf (frameOf s) = verifyRegsOf (frameOf t)
  by_cases hshort : s.len < 6
  · rw [verifyRegsOf_short hshort, verifyRegsOf_short (hl ▸ hshort)]
  · have hlong : 6 ≤ s.len := Nat.le_of_not_lt hshort
    have hbody := bodyOf_frameOf_eq_of_fbRead_eq hl fun a ha hb => h a ha (by omega)
    rw [verifyRegsOf_long hlong, verifyRegsOf_long (hl ▸ hlong), ← hl, hbody, h (s.len - 3) (by omega) (by omega),
      h (s.len - 2) (by omega) (by omega)]

/-! Patching the checksum (R91). -/

/-- The two checksum bytes overwritten. -/
def patchChecksum (c : Word16) (s : State) : State :=
  storeByte (s.len - 2) (loByte c) (storeByte (s.len - 3) (hiByte c) s)

theorem exec_patchChecksum {s : State} (hr : s.wasReset = true) (hfit : s.len ≤ s.cfg.fbSize) (h : 6 ≤ s.len)
    (c : Word16) :
    execAll [.hostWriteFb (s.len - 3) (hiByte c), .hostWriteFb (s.len - 2) (loByte c)] s
      = .next (patchChecksum c s) := by
  have hhi : exec (.hostWriteFb (s.len - 3) (hiByte c)) s = .next (storeByte (s.len - 3) (hiByte c) s) := by
    rw [exec_hostWriteFb hr, if_pos (by omega)]
  have hlo : exec (.hostWriteFb (s.len - 2) (loByte c)) (storeByte (s.len - 3) (hiByte c) s)
      = .next (patchChecksum c s) := by
    rw [exec_hostWriteFb (by rw [storeByte_wasReset, hr]), storeByte_cfg, if_pos (by omega)]
    rfl
  rw [execAll_cons hhi, execAll_cons hlo, execAll_nil]

theorem fbRead_patchChecksum_hi {s : State} (h : 6 ≤ s.len) (c : Word16) :
    fbRead (patchChecksum c s) (s.len - 3) = hiByte c := by
  rw [patchChecksum, fbRead_storeByte_other _ _ (by omega), fbRead_storeByte_same]

theorem fbRead_patchChecksum_lo (c : Word16) (s : State) : fbRead (patchChecksum c s) (s.len - 2) = loByte c :=
  fbRead_storeByte_same _ _ _

theorem patchChecksum_len (c : Word16) (s : State) : (patchChecksum c s).len = s.len := rfl

/-- The body lies before the checksum bytes. -/
theorem bodyOf_frameOf_patchChecksum (c : Word16) (s : State) :
    bodyOf (frameOf (patchChecksum c s)) = bodyOf (frameOf s) := by
  refine bodyOf_frameOf_eq_of_fbRead_eq rfl fun a _ ha => ?_
  rw [patchChecksum_len] at ha
  rw [patchChecksum, fbRead_storeByte_other _ _ (by omega), fbRead_storeByte_other _ _ (by omega)]

/-- VERIFY finds in the patched frame the checksum it computes. -/
theorem verifyRegsOf_patchChecksum {s : State} (h : 6 ≤ s.len) :
    verifyRegsOf (frameOf (patchChecksum (chkOf (bodyOf (frameOf s))) s))
      = ⟨true, chkOf (bodyOf (frameOf s)), chkOf (bodyOf (frameOf s))⟩ := by
  rw [verifyRegsOf_long (by exact h), bodyOf_frameOf_patchChecksum, patchChecksum_len, fbRead_patchChecksum_hi h,
    fbRead_patchChecksum_lo, beWord_bytes, beq_self_eq_true, beq_self_eq_true, Bool.and_self]

/-- Settles O26: the patch leaves the body, and so its checksum; below 6 bytes VERIFY reads nothing. -/
theorem patchedChecksumVerifies : Obligations.PatchedChecksumVerifies := by
  intro s hr hfit
  refine ⟨fun h => ?_, fun h => ⟨_, exec_verify hr, by rw [verifyRegsOf_short h]; rfl⟩⟩
  have hpatch := exec_patchChecksum hr hfit h (chkOf (bodyOf (frameOf s)))
  have hverify := exec_verify (s := patchChecksum (chkOf (bodyOf (frameOf s))) s) hr
  rw [verifyRegsOf_patchChecksum h] at hverify
  exact ⟨_, (execAll_append hpatch [.verify]).trans (execAll_cons hverify []), rfl, rfl⟩

/-! Corner cases of the checksum (R89). -/

theorem dataBytes_length (s : State) (n : Nat) : (dataBytes s n).length = n := by simp [dataBytes]

theorem chkOf_eq_zero_of_sumBytes {body : List Byte} (h : sumBytes body = 0) : chkOf body = 0 := by
  rw [chkOf, h]
  rfl

/-- The checksum of a sum below 65536: what it lacks to 65536, or zero for the sum zero. -/
theorem chkOf_add_sumBytes {body : List Byte} (h : sumBytes body ≤ 65535) :
    (chkOf body).toNat + sumBytes body = 65536 ∨ (chkOf body = 0 ∧ sumBytes body = 0) := by
  have hchk := chkOf_toNat body
  rcases Nat.eq_zero_or_pos (sumBytes body) with hzero | hpos
  · exact .inr ⟨chkOf_eq_zero_of_sumBytes hzero, hzero⟩
  · exact .inl (by omega)

/-- The bytes at `2..LEN-4` are the body (R82), so where they are zero its sum is (R89 a). -/
theorem sumBytes_body_of_zero {s : State} (h : ∀ a, 2 ≤ a → a + 4 ≤ s.len → fbRead s a = 0) :
    sumBytes (bodyOf (frameOf s)) = 0 := by
  rw [sumBytes_bodyOf_frameOf]
  refine List.sum_eq_zero fun n hn => ?_
  obtain ⟨k, hk, rfl⟩ := List.mem_map.mp hn
  have hbound := List.mem_range.mp hk
  rw [h (2 + k) (by omega) (by omega)]
  rfl

/-- In a canonical frame the body is the status, the length byte N and the N data bytes (R64, R65). -/
theorem bodyOf_frameOf_of_canonical {s : State} (h : s.len = (fbRead s 3).toNat + 7) :
    bodyOf (frameOf s) = fbRead s 2 :: fbRead s 3 :: dataBytes s (fbRead s 3).toNat := by
  have hcount : s.len - 5 = (fbRead s 3).toNat + 1 + 1 := by omega
  have hoffset (k : Nat) : 2 + (k + 1 + 1) = 4 + k := by omega
  rw [bodyOf_frameOf, hcount]
  simp [List.range_succ_eq_map, dataBytes, offData, hoffset]

/-- The body's bytes sum to at most 255 + N + 255 N (R89 c). -/
theorem sumBytes_body_le_of_canonical {s : State} (h : s.len = (fbRead s 3).toNat + 7) :
    sumBytes (bodyOf (frameOf s)) ≤ 65535 := by
  have hstatus := (fbRead s 2).isLt
  have hn := (fbRead s 3).isLt
  have hdata := sumBytes_le (dataBytes s (fbRead s 3).toNat)
  rw [dataBytes_length] at hdata
  rw [bodyOf_frameOf_of_canonical h, sumBytes_cons, sumBytes_cons]
  omega

/-- Settles O27: zero bytes sum to zero, and a canonical body's sum does not reach 65536. -/
theorem checksumCornerCases : Obligations.ChecksumCornerCases := by
  intro s hr h
  refine ⟨fun hzero => ?_, fun hcanonical => ?_⟩
  · have hchk := chkOf_eq_zero_of_sumBytes (sumBytes_body_of_zero hzero)
    refine ⟨_, exec_verify hr, (verifyRegsOf_acc h).trans hchk, (verifyRegsOf_verifyOk_iff h).trans ?_⟩
    rw [hchk, eq_comm, @eq_comm _ (loByte 0)]
    rfl
  · have hle := sumBytes_body_le_of_canonical hcanonical
    have hsum := chkOf_add_sumBytes hle
    rw [← verifyRegsOf_acc h] at hsum
    rw [sumBytes_bodyOf_frameOf] at hle hsum
    exact ⟨hle, _, exec_verify hr, hsum⟩

/-! The internal steps (R81 to R87). -/

theorem afterReset_ite_of_short {s t u : State} (hr : s.wasReset = true) (h : s.len < 6) :
    afterReset s (.next (if s.len < minVerifyLen then t else u)) = .next t :=
  (afterReset_of_reset hr _).trans (congrArg _ (if_pos h))

theorem afterReset_ite_of_long {s t u : State} (hr : s.wasReset = true) (h : 6 ≤ s.len) :
    afterReset s (.next (if s.len < minVerifyLen then t else u)) = .next u :=
  (afterReset_of_reset hr _).trans (congrArg _ (if_neg (Nat.not_lt.mpr h)))

theorem exec_verifyGuard_of_short {s : State} (hr : s.wasReset = true) (h : s.len < 6) :
    exec .verifyGuard s = .next (setVer .zero s) :=
  afterReset_ite_of_short hr h

theorem exec_verifyGuard_of_long {s : State} (hr : s.wasReset = true) (h : 6 ≤ s.len) :
    exec .verifyGuard s = .next s :=
  afterReset_ite_of_long hr h

theorem exec_verifyBody {s : State} (hr : s.wasReset = true) (h : 6 ≤ s.len) :
    exec .verifyBody s = .next (setWork { s.work with i := bodyFirst } s) :=
  afterReset_ite_of_long hr h

/-- The register's value is the checksum of the bytes it subtracts (R84). -/
theorem exec_verifyAccumulate {s : State} (hr : s.wasReset = true) (h : 6 ≤ s.len) :
    exec .verifyAccumulate s = .next
      { s with ver := { s.ver with acc := chkOf (bodyFrom s s.work.i) }
               work := { s.work with acc := chkOf (bodyFrom s s.work.i), i := s.len - 3 } } := by
  rw [← accumulate_eq_chkOf]
  exact afterReset_ite_of_long hr h

theorem exec_verifyEncode {s : State} (hr : s.wasReset = true) (h : 6 ≤ s.len) :
    exec .verifyEncode s = .next (setWork { s.work with hi := hiByte s.work.acc, lo := loByte s.work.acc } s) :=
  afterReset_ite_of_long hr h

theorem exec_verifyFetch {s : State} (hr : s.wasReset = true) (h : 6 ≤ s.len) :
    exec .verifyFetch s = .next
      (setVer { s.ver with chkRx := beWord (fbRead s (s.len - 3)) (fbRead s (s.len - 2)) } s) :=
  afterReset_ite_of_long hr h

theorem exec_verifyCompare {s : State} (hr : s.wasReset = true) (h : 6 ≤ s.len) :
    exec .verifyCompare s = .next
      (setVer { s.ver with
        verifyOk := s.work.hi == fbRead s (s.len - 3) && s.work.lo == fbRead s (s.len - 2) } s) :=
  afterReset_ite_of_long hr h

/-- Settles O14: both clear the three registers below 6 bytes. -/
theorem verifyGuardsShortFrames : Obligations.VerifyGuardsShortFrames := by
  intro s hr
  refine ⟨fun h => ⟨?_, exec_verifyGuard_of_short hr h⟩, exec_verifyGuard_of_long hr⟩
  rw [exec_verify hr, verifyRegsOf_short h]
  rfl

/-- Settles O15: each step behind the guard tests the length again. -/
theorem stepsBehindTheGuardDoNothing : Obligations.StepsBehindTheGuardDoNothing := by
  intro s hr h i hi
  simp only [List.mem_cons, List.not_mem_nil, or_false] at hi
  rcases hi with rfl | rfl | rfl | rfl | rfl <;> exact afterReset_ite_of_short hr h

/-- Settles O18: from offset 2 the body is the frame's. -/
theorem bodyStepSelectsInterior : Obligations.BodyStepSelectsInterior := by
  intro s hr h
  exact ⟨_, exec_verifyBody hr h, rfl, (bodyFrom_bodyFirst _).trans (bodyOf_frameOf _)⟩

/-- Settles O20: the register refines the wide formula over the bytes from the index on. -/
theorem accumulateStepWritesAcc : Obligations.AccumulateStepWritesAcc := by
  intro s hr h
  refine ⟨_, exec_verifyAccumulate hr h, ?_⟩
  rw [chkOf_toNat, bodyFrom, sumBytes_map_range]
  rfl

/-- Settles O21: the two bytes of a word are its quotient and remainder by 256. -/
theorem encodeStepSplitsBigEndian : Obligations.EncodeStepSplitsBigEndian := fun _ hr h =>
  ⟨_, _, exec_verifyEncode hr h, hiByte_toNat _, loByte_toNat _⟩

/-- Settles O22: the pair of the two bytes, as a number. -/
theorem fetchStepReadsTrailer : Obligations.FetchStepReadsTrailer := fun _ hr h =>
  ⟨_, exec_verifyFetch hr h, beWord_toNat _ _⟩

/-- Settles O23: the comparison of the row, as a proposition. -/
theorem compareStepWritesVerifyOk : Obligations.CompareStepWritesVerifyOk := by
  intro s hr h
  rw [exec_verifyCompare hr h, Bool.decide_and]
  rfl

/-! The six steps in their order. -/

theorem execAll_of_forall_keep {is : List Instr} {s : State} (h : ∀ i ∈ is, exec i s = .next s) :
    execAll is s = .next s := by
  induction is with
  | nil => rfl
  | cons i is ih =>
    rw [execAll_cons (h i List.mem_cons_self)]
    exact ih fun j hj => h j (List.mem_cons_of_mem i hj)

theorem execAll_cons_eq {i : Instr} {is : List Instr} {s t : State} {o : Host.Outcome State Fault Refusal}
    (hi : exec i s = .next t) (his : execAll is t = o) : execAll (i :: is) s = o := (execAll_cons hi is).trans his

theorem execAll_verifySteps_of_long {s : State} (hr : s.wasReset = true) (h : 6 ≤ s.len) :
    ∃ w, execAll [.verifyGuard, .verifyBody, .verifyAccumulate, .verifyEncode, .verifyFetch, .verifyCompare] s
      = .next { s with ver := verifyRegsOf (frameOf s), work := w } := by
  rw [verifyRegsOf_long h, ← bodyFrom_bodyFirst]
  exact ⟨_, execAll_cons_eq (exec_verifyGuard_of_long hr h) <| execAll_cons_eq (exec_verifyBody hr h) <|
    execAll_cons_eq (exec_verifyAccumulate hr h) <| execAll_cons_eq (exec_verifyEncode hr h) <|
    execAll_cons_eq (exec_verifyFetch hr h) <| execAll_cons_eq (exec_verifyCompare hr h) rfl⟩

/-- Settles O24: below 6 bytes the guard writes the result and the rest is not reached; from 6 bytes on each step adds
its part of the result. -/
theorem verifyStepsRefineVerify : Obligations.VerifyStepsRefineVerify := by
  intro s hr
  by_cases hshort : s.len < 6
  · refine ⟨_, s.work, exec_verify hr, ?_⟩
    rw [execAll_cons (exec_verifyGuard_of_short hr hshort), verifyRegsOf_short hshort]
    exact execAll_of_forall_keep (stepsBehindTheGuardDoNothing (setVer .zero s) hr hshort)
  · obtain ⟨w, hsteps⟩ := execAll_verifySteps_of_long hr (Nat.le_of_not_lt hshort)
    exact ⟨_, w, exec_verify hr, hsteps⟩

end Sys2Proof.Machine
end

section
/-! PROOFS. PARSE: its outcome in terms of FB, the first check that fails, and its six internal steps (R100 to R109). -/

namespace Sys2Proof.Machine

/-! The markers (R102, R103). -/

theorem startWrong_eq (s : State) : startWrong s = decide (fbRead s 0 ≠ 0xDD) := decide_not.symm

theorem endWrong_eq (s : State) : endWrong s = decide (fbRead s (s.len - 1) ≠ 0x77) := decide_not.symm

theorem markersRight_eq_false_iff (s : State) :
    markersRight s = false ↔ fbRead s 0 ≠ 0xDD ∨ fbRead s (s.len - 1) ≠ 0x77 := by
  rw [← Bool.not_eq_true, markersRight_iff, not_and_or]

/-! The registers PARSE leaves, check by check (R101 to R107, R142). -/

theorem parseRegsOf_of_short {s : State} (h : s.len < 7) : parseRegsOf (frameOf s) = .ofError .tooShort := by
  rw [parseRegsOf, parseFrame_short h]

theorem parseRegsOf_of_wrong_marker {s : State} (h : 7 ≤ s.len) (hwrong : markersRight s = false) :
    parseRegsOf (frameOf s) = .ofError (.badMarker (startWrong s) (endWrong s)) := by
  have heither : (fbRead s 0 != 0xDD || fbRead s (s.len - 1) != 0x77) = true := by
    simpa using (markersRight_eq_false_iff s).mp hwrong
  rw [parseRegsOf, parseFrame_long h, if_pos heither]
  rfl

theorem parseRegsOf_of_truncated {s : State} (h : 7 ≤ s.len) (hright : markersRight s = true)
    (hdata : s.len < (fbRead s 3).toNat + 7) : parseRegsOf (frameOf s) = .ofError .truncatedData := by
  obtain ⟨hstart, hend⟩ := (markersRight_iff s).mp hright
  rw [parseRegsOf_of_markers h hstart hend, if_pos hdata]

theorem parseRegsOf_of_accepted {s : State} (hright : markersRight s = true)
    (hdata : (fbRead s 3).toNat + 7 ≤ s.len) :
    parseRegsOf (frameOf s) = ⟨psOk, false, false, fbRead s 1, fbRead s 2, fbRead s 3⟩ := by
  obtain ⟨hstart, hend⟩ := (markersRight_iff s).mp hright
  rw [parseRegsOf_of_markers (by omega) hstart hend, if_neg (Nat.not_lt.mpr hdata)]

/-- PARSE_ST is the code of the first check that fails, in the order of R109. -/
theorem parseRegsOf_parseSt (s : State) :
    (parseRegsOf (frameOf s)).parseSt =
      if s.len < 7 then psTooShort
      else if markersRight s = false then psBadMarker
      else if s.len < (fbRead s 3).toNat + 7 then psTruncatedData
      else psOk := by
  split_ifs with hshort hwrong hdata
  · rw [parseRegsOf_of_short hshort]
    rfl
  · rw [parseRegsOf_of_wrong_marker (Nat.le_of_not_lt hshort) hwrong]
    rfl
  · rw [parseRegsOf_of_truncated (Nat.le_of_not_lt hshort) (Bool.eq_true_of_not_eq_false hwrong) hdata]
    rfl
  · rw [parseRegsOf_of_accepted (Bool.eq_true_of_not_eq_false hwrong) (Nat.le_of_not_lt hdata)]

/-- BadMarker is reported from 7 bytes on and for a wrong marker only (R102). -/
theorem parseRegsOf_of_badMarker {s : State} (h : (parseRegsOf (frameOf s)).parseSt = psBadMarker) :
    parseRegsOf (frameOf s) = .ofError (.badMarker (startWrong s) (endWrong s)) := by
  rw [parseRegsOf_parseSt] at h
  split_ifs at h with hshort hwrong hdata
  · cases h
  · exact parseRegsOf_of_wrong_marker (Nat.le_of_not_lt hshort) hwrong
  · cases h
  · cases h

/-- Settles O33: the registers PARSE leaves are legal, BadMarker carries the two comparisons, and the view is as long as
DLEN. -/
theorem parseOutcomeIsLegal : Obligations.ParseOutcomeIsLegal := by
  intro s hr
  have hlegal := parseRegsOf_legal (frameOf s)
  refine ⟨_, exec_parse hr, rfl, hlegal.code, fun hcode => ?_, hlegal.noFlags, fun hcode => ?_⟩
  · have hflag := hlegal.someFlag hcode
    rw [parseRegsOf_of_badMarker hcode] at hflag ⊢
    exact ⟨bne_iff_ne, bne_iff_ne, hflag⟩
  · obtain ⟨hcommand, hstatus, hdlen⟩ := hlegal.noFields hcode
    exact ⟨hcommand, hstatus, hdlen, List.eq_nil_of_length_eq_zero (by simp [hdlen])⟩

/-- Settles O34: the code is that of the first check that fails. -/
theorem parseReportsFirstCause : Obligations.ParseReportsFirstCause := by
  intro s hr
  refine ⟨_, exec_parse hr, ?_⟩
  simp only [parseRegsOf_parseSt, ← and_assoc, ← markersRight_iff, ← not_lt]
  split_ifs with hshort hwrong hdata
  · simp [psTooShort, hshort]
  · simp [psBadMarker, hshort, hwrong]
  · simp [psTruncatedData, hshort, hwrong, hdata]
  · simp [psOk, hshort, hwrong, hdata]

/-- Settles O29: with a wrong marker PARSE records the two comparisons. -/
theorem parseBadMarkerNamesTheMarkers : Obligations.ParseBadMarkerNamesTheMarkers := by
  intro s hr h hwrong
  rw [exec_parse hr, parseRegsOf_of_wrong_marker h ((markersRight_eq_false_iff s).mpr hwrong), startWrong_eq,
    endWrong_eq]
  rfl

/-- Settles O31: PARSE leaves the three header bytes, and the view is as long as the third says. -/
theorem parseAcceptsPacket : Obligations.ParseAcceptsPacket := by
  intro s hr _ hstart hend hdata
  rw [exec_parse hr, parseRegsOf_of_accepted ((markersRight_iff s).mpr ⟨hstart, hend⟩) hdata]
  exact ⟨_, rfl, rfl, rfl⟩

/-- Settles O30: with both markers right PARSE compares LEN with N + 7. -/
theorem parseTruncatedBelowDeclaredLength : Obligations.ParseTruncatedBelowDeclaredLength := by
  intro s hr h hstart hend
  refine ⟨fun hdata => ?_, fun hdata => ?_⟩
  · rw [exec_parse hr, parseRegsOf_of_truncated h ((markersRight_iff s).mpr ⟨hstart, hend⟩) hdata]
    rfl
  · obtain ⟨t, hparse, rfl, -⟩ := parseAcceptsPacket s hr h hstart hend hdata
    exact ⟨_, hparse, rfl, dataView_length _⟩

/-! The internal steps (R101 to R107). -/

section

variable {s : State} (hr : s.wasReset = true)

include hr

theorem afterReset_ite_of_pos {t u : State} {c : Prop} [Decidable c] (hc : c) :
    afterReset s (.next (if c then t else u)) = .next t :=
  (afterReset_of_reset hr _).trans (congrArg _ (if_pos hc))

theorem afterReset_ite_of_neg {t u : State} {c : Prop} [Decidable c] (hc : ¬ c) :
    afterReset s (.next (if c then t else u)) = .next u :=
  (afterReset_of_reset hr _).trans (congrArg _ (if_neg hc))

theorem exec_parseLencheck_of_short (h : s.len < 7) :
    exec .parseLencheck s = .next (raiseFraming .tooShort s) :=
  afterReset_ite_of_pos hr h

theorem exec_parseLencheck_of_long (h : 7 ≤ s.len) : exec .parseLencheck s = .next s :=
  afterReset_ite_of_neg hr (Nat.not_lt.mpr h)

/-- The steps that record BadMarker do nothing where there is none to record (R109, log 12). -/
theorem exec_markerSteps_unreached (h : s.len < 7 ∨ markersRight s = true) :
    ∀ i ∈ [Instr.parseMarkers, .parseMarkerId], exec i s = .next s :=
  List.forall_mem_cons.mpr ⟨afterReset_ite_of_pos hr h, List.forall_mem_singleton.mpr (afterReset_ite_of_pos hr h)⟩

/-- The steps behind the markers do nothing after TooShort or BadMarker (R109, log 12). -/
theorem exec_packetSteps_unreached (h : s.len < 7 ∨ markersRight s = false) :
    ∀ i ∈ [Instr.parseHeader, .parseDlencheck, .parseData], exec i s = .next s := by
  have hguard : s.len < minParseLen ∨ (!markersRight s) = true := by rwa [Bool.not_eq_true']
  exact List.forall_mem_cons.mpr ⟨afterReset_ite_of_pos hr hguard,
    List.forall_mem_cons.mpr ⟨afterReset_ite_of_pos hr hguard,
      List.forall_mem_singleton.mpr (afterReset_ite_of_pos hr (or_assoc.mp (.inl hguard)))⟩⟩

/-- DATA does nothing after TruncatedData (R109, log 12). -/
theorem exec_parseData_unreached (hdata : s.len < s.work.n.toNat + 7) : exec .parseData s = .next s :=
  afterReset_ite_of_pos hr (.inr (.inr hdata))

theorem exec_parseMarkers_of_wrong (h : 7 ≤ s.len) (hwrong : markersRight s = false) :
    exec .parseMarkers s = .next (raiseFraming (.badMarker false false) s) :=
  afterReset_ite_of_neg hr (not_or.mpr ⟨Nat.not_lt.mpr h, ne_true_of_eq_false hwrong⟩)

theorem exec_parseMarkerId_of_wrong (h : 7 ≤ s.len) (hwrong : markersRight s = false) :
    exec .parseMarkerId s = .next (setPkt { s.pkt with badStart := startWrong s, badEnd := endWrong s } s) :=
  afterReset_ite_of_neg hr (not_or.mpr ⟨Nat.not_lt.mpr h, ne_true_of_eq_false hwrong⟩)

end

/-- The state with the header fields in the working registers, as HEADER leaves it (R104). -/
def latchHeader (s : State) : State :=
  setWork { s.work with command := fbRead s 1, status := fbRead s 2, n := fbRead s 3 } s

/-- The guard of the steps behind the markers does not stop them (R109). -/
theorem not_short_or_wrong {s : State} (h : 7 ≤ s.len) (hright : markersRight s = true) :
    ¬ (s.len < minParseLen ∨ (!markersRight s) = true) :=
  not_or.mpr ⟨Nat.not_lt.mpr h, by rw [hright]; decide⟩

section

variable {s : State} (hr : s.wasReset = true) (h : 7 ≤ s.len) (hright : markersRight s = true)

include hr h hright

theorem exec_parseHeader_of_right : exec .parseHeader s = .next (latchHeader s) :=
  afterReset_ite_of_neg hr (not_short_or_wrong h hright)

theorem exec_parseDlencheck_of_right :
    exec .parseDlencheck s = .next (if s.len < s.work.n.toNat + 7 then raiseFraming .truncatedData s else s) :=
  afterReset_ite_of_neg hr (not_short_or_wrong h hright)

theorem exec_parseData_of_fits (hdata : s.work.n.toNat + 7 ≤ s.len) :
    exec .parseData s = .next
      (acceptPacket ⟨s.work.command, s.work.status, s.work.n, dataBytes s s.work.n.toNat⟩ s) := by
  refine afterReset_ite_of_neg hr ?_
  rw [← or_assoc]
  exact not_or.mpr ⟨not_short_or_wrong h hright, Nat.not_lt.mpr hdata⟩

end

/-- Settles O28: PARSE and LENCHECK make the same first check. -/
theorem parseTooShortBelowSeven : Obligations.ParseTooShortBelowSeven := by
  intro s hr
  refine ⟨fun h => ⟨?_, exec_parseLencheck_of_short hr h⟩, exec_parseLencheck_of_long hr⟩
  rw [exec_parse hr, parseRegsOf_of_short h]
  rfl

/-- Settles O37: both steps test the length and the markers, and MARKER_ID records the two comparisons. -/
theorem markerStepsRecordBadMarker : Obligations.MarkerStepsRecordBadMarker := by
  intro s hr
  refine ⟨fun h hmarker => ?_, fun h => ?_⟩
  · have hwrong := (markersRight_eq_false_iff s).mpr hmarker
    rw [exec_parseMarkers_of_wrong hr h hwrong, exec_parseMarkerId_of_wrong hr h hwrong, startWrong_eq, endWrong_eq]
    exact ⟨rfl, rfl⟩
  · rw [← markersRight_iff] at h
    simpa using exec_markerSteps_unreached hr h

/-- Settles O38: HEADER and the steps behind it test the length and the markers. -/
theorem headerStepLatchesFields : Obligations.HeaderStepLatchesFields := by
  intro s hr
  refine ⟨fun h hstart hend => exec_parseHeader_of_right hr h ((markersRight_iff s).mpr ⟨hstart, hend⟩), fun h => ?_⟩
  rw [← markersRight_eq_false_iff] at h
  simpa using exec_packetSteps_unreached hr h

/-- Settles O39: both steps compare LEN with the latched N + 7. -/
theorem lengthAndDataStepsDecideThePacket : Obligations.LengthAndDataStepsDecideThePacket := by
  intro s hr h hstart hend
  have hright := (markersRight_iff s).mpr ⟨hstart, hend⟩
  rw [exec_parseDlencheck_of_right hr h hright]
  refine ⟨fun hdata => ?_, fun hdata => ?_⟩
  · rw [if_pos hdata]
    exact ⟨rfl, exec_parseData_unreached hr hdata⟩
  · rw [if_neg (Nat.not_lt.mpr hdata)]
    exact ⟨rfl, _, exec_parseData_of_fits hr h hright hdata, rfl, rfl⟩

/-! The six steps in their order (R100, R109). -/

/-- The internal steps of PARSE in the order of the pseudocode (R100). -/
def parseSteps : List Instr :=
  [.parseLencheck, .parseMarkers, .parseMarkerId, .parseHeader, .parseDlencheck, .parseData]

/-- TooShort is LENCHECK's to record (R101). -/
theorem execAll_parseSteps_of_short {s : State} (hr : s.wasReset = true) (h : s.len < 7) :
    execAll parseSteps s = .next (raiseFraming .tooShort s) :=
  execAll_cons_eq (exec_parseLencheck_of_short hr h) <| execAll_of_forall_keep <|
    List.forall_mem_append.mpr ⟨exec_markerSteps_unreached (s := raiseFraming .tooShort s) hr (.inl h),
      exec_packetSteps_unreached (s := raiseFraming .tooShort s) hr (.inl h)⟩

/-- BadMarker is MARKERS' to record, and which marker it was is MARKER_ID's (R102, R103). -/
theorem execAll_parseSteps_of_wrong_marker {s : State} (hr : s.wasReset = true) (h : 7 ≤ s.len)
    (hwrong : markersRight s = false) :
    execAll parseSteps s = .next (raiseFraming (.badMarker (startWrong s) (endWrong s)) s) := by
  have hrest := exec_packetSteps_unreached (s := raiseFraming (.badMarker (startWrong s) (endWrong s)) s) hr
    (.inr hwrong)
  exact execAll_cons_eq (exec_parseLencheck_of_long hr h) <|
    execAll_cons_eq (exec_parseMarkers_of_wrong hr h hwrong) <|
    execAll_cons_eq (exec_parseMarkerId_of_wrong hr h hwrong) (execAll_of_forall_keep hrest)

/-- With both markers right HEADER latches the fields, DLENCHECK compares and DATA delivers (R104 to R107). -/
theorem execAll_parseSteps_of_right {s : State} (hr : s.wasReset = true) (h : 7 ≤ s.len)
    (hright : markersRight s = true) :
    ∃ w, execAll parseSteps s = .next { s with pkt := parseRegsOf (frameOf s), work := w } := by
  have hcheck := exec_parseLencheck_of_long hr h
  have hmarkers := execAll_of_forall_keep (exec_markerSteps_unreached hr (.inr hright))
  have hheader := exec_parseHeader_of_right hr h hright
  have hdlen := exec_parseDlencheck_of_right (s := latchHeader s) hr h hright
  by_cases hdata : s.len < (fbRead s 3).toNat + 7
  · rw [parseRegsOf_of_truncated h hright hdata]
    exact ⟨_, execAll_cons_eq hcheck <| (execAll_append hmarkers _).trans <| execAll_cons_eq hheader <|
      execAll_cons_eq (hdlen.trans (congrArg _ (if_pos hdata))) <|
      execAll_cons_eq (exec_parseData_unreached hr hdata) rfl⟩
  · rw [parseRegsOf_of_accepted hright (Nat.le_of_not_lt hdata)]
    exact ⟨_, execAll_cons_eq hcheck <| (execAll_append hmarkers _).trans <| execAll_cons_eq hheader <|
      execAll_cons_eq (hdlen.trans (congrArg _ (if_neg hdata))) <|
      execAll_cons_eq (exec_parseData_of_fits hr h hright (Nat.le_of_not_lt hdata)) rfl⟩

/-- Settles O40: the step that finds the first failing check writes the result and the later ones are not reached; with
no failing check DATA writes it. -/
theorem parseStepsRefineParse : Obligations.ParseStepsRefineParse := by
  intro s hr
  by_cases hshort : s.len < 7
  · refine ⟨_, s.work, exec_parse hr, ?_⟩
    rw [parseRegsOf_of_short hshort]
    exact execAll_parseSteps_of_short hr hshort
  have h : 7 ≤ s.len := Nat.le_of_not_lt hshort
  by_cases hwrong : markersRight s = false
  · refine ⟨_, s.work, exec_parse hr, ?_⟩
    rw [parseRegsOf_of_wrong_marker h hwrong]
    exact execAll_parseSteps_of_wrong_marker hr h hwrong
  · obtain ⟨w, hsteps⟩ := execAll_parseSteps_of_right hr h (Bool.eq_true_of_not_eq_false hwrong)
    exact ⟨_, w, exec_parse hr, hsteps⟩

end Sys2Proof.Machine
end

section
/-! PROOFS. The operation: START, the quiet rows while it runs, COMPLETE and RUN, and the two results side by side (R120
to R128, R131). -/

namespace Sys2Proof.Machine

/-! START, COMPLETE and RUN (R120, R121, R122, R125). -/

theorem execAll_singleton (i : Instr) (s : State) : execAll [i] s = exec i s := by
  cases h : exec i s <;> simp [execAll, h]

theorem exec_hostStart_of_idle {s : State} (h : s.wasReset = true) (hb : s.busy = false) :
    exec .hostStart s = .next (acceptStart s) := by
  rw [exec_hostStart h, giveStart_of_idle hb]

theorem exec_hostStart_of_busy {s : State} (h : s.wasReset = true) (hb : s.busy = true) :
    exec .hostStart s = .next s := by
  rw [exec_hostStart h, giveStart_of_busy hb]

/-- START and the completion step are RUN (log 7). -/
theorem execAll_start_complete {s : State} (h : s.wasReset = true) (hb : s.busy = false) :
    execAll [.hostStart, .complete] s = .next (runOp s) := by
  rw [execAll_cons (exec_hostStart_of_idle h hb), execAll_singleton,
    exec_complete (s := acceptStart s) h, runOp, if_neg (ne_true_of_eq_false hb)]

/-- With a hazard or without, the completion step ends in BUSY 0, DONE 1 (R122, R163). -/
theorem completeOp_flags {s : State} (hb : s.busy = true) :
    (completeOp s).busy = false ∧ (completeOp s).done = true := by
  rw [completeOp, if_pos hb]
  exact ⟨finish_busy _, finish_done _⟩

/-- The PARSE registers for each outcome of PARSE, written out (R17, R142). -/
theorem parseRegsOf_eq_match (f : List Byte) :
    parseRegsOf f = match parseFrame f with
      | .error .tooShort => ⟨2, false, false, 0, 0, 0⟩
      | .error (.badMarker bs be) => ⟨3, bs, be, 0, 0, 0⟩
      | .error .truncatedData => ⟨4, false, false, 0, 0, 0⟩
      | .ok p => ⟨1, false, false, p.command, p.status, p.dataLength⟩ := by
  unfold parseRegsOf
  cases parseFrame f with
  | ok p => rfl
  | error e => cases e <;> rfl

/-- Settles O4: an idle core takes the START, which is the record update of R121. -/
theorem startAccepted : Obligations.StartAccepted := fun _ hr hb => ⟨.zero, rfl, exec_hostStart_of_idle hr hb⟩

/-- Settles O5: a START while BUSY = 1 leaves the very state, so the completion step finds it as it was. -/
theorem startIgnoredWhileBusy : Obligations.StartIgnoredWhileBusy := by
  intro s hr hb
  have hstart := exec_hostStart_of_busy hr hb
  exact ⟨hstart, (execAll_cons hstart _).trans (execAll_singleton _ s)⟩

/-- Settles O6: without a hazard the completion step writes the registers of VERIFY and of PARSE for the frame. -/
theorem completionWritesBothResults : Obligations.CompletionWritesBothResults := by
  intro s hr hb hh
  rw [exec_complete hr, completeOp_of_busy hb hh, parseRegsOf_eq_match]
  rfl

/-- Settles O8: COMPLETE tests BUSY, and RUN begins with a START. -/
theorem disabledRowsChangeNothing : Obligations.DisabledRowsChangeNothing := by
  intro s hr
  refine ⟨fun hb => ?_, fun hb => ?_⟩
  · rw [exec_complete hr, completeOp_of_idle hb]
  · rw [exec_run hr, runOp_of_busy hb]

/-- Settles O9: START changes neither FB nor LEN, so the completion sees the frame VERIFY and PARSE would see. -/
theorem runDeliversBothResults : Obligations.RunDeliversBothResults := by
  intro s hr hb
  refine ⟨runOp s, _, _, exec_run hr, execAll_start_complete hr hb, exec_verify hr, exec_parse hr, ?_⟩
  rw [runOp_idle hb]

/-! Quiet rows while an operation runs (R126, R131). -/

/-- Any number of quiet rows changes nothing but what was handed to the host. -/
theorem execAll_quiet {rows : List Instr} {s : State} (hr : s.wasReset = true) (hb : s.busy = true)
    (hq : ∀ i ∈ rows, i.quiet s.cfg = true) : ∃ r c, execAll rows s = .next { s with readout := r, chkValue := c } := by
  induction rows generalizing s with
  | nil => exact ⟨s.readout, s.chkValue, rfl⟩
  | cons i rows ih =>
    obtain ⟨hqi, hqrows⟩ := List.forall_mem_cons.mp hq
    obtain ⟨r, c, hi⟩ := exec_quiet hr hb hqi
    obtain ⟨r', c', hrows⟩ := ih (s := { s with readout := r, chkValue := c }) hr hb hqrows
    exact ⟨r', c', execAll_cons_eq hi hrows⟩

/-- Settles O11: the quiet rows leave FB, LEN and the hazard mark of the accepted START, so the completion step has the
frame of the START before it. -/
theorem snapshotDeterminesResults : Obligations.SnapshotDeterminesResults := by
  intro s rows hr hb hq
  obtain ⟨r, c, hrows⟩ := execAll_quiet (s := acceptStart s) hr rfl hq
  have hcomplete := exec_complete (s := { acceptStart s with readout := r, chkValue := c }) hr
  refine ⟨_, execAll_cons_eq (exec_hostStart_of_idle hr hb) <| (execAll_append hrows _).trans <|
    execAll_cons_eq hcomplete rfl, ?_⟩
  rw [completeOp_of_busy rfl rfl]
  exact ⟨rfl, rfl, rfl, rfl, rfl, parseRegsOf_eq_match _⟩

theorem run_succ_of_step {M : Host.Core} {s t : M.State} (h : M.step s = .next t) (k : Nat) :
    M.run (k + 1) s = M.run k t := by
  rw [Host.Core.run, h]

/-- Settles O13: each step takes one quiet row off the script and leaves the operation running, and the step after the
last is the core's completion. -/
theorem runningOperationCompletes : Obligations.RunningOperationCompletes := by
  intro s rows hr hb hs hq
  induction rows generalizing s with
  | nil =>
    have hstep : step s = .next (completeOp s) := (step_nil hs).trans (exec_complete hr)
    exact ⟨completeOp s, run_succ_of_step (M := core) hstep 0, completeOp_flags hb⟩
  | cons i rows ih =>
    obtain ⟨hqi, hqrows⟩ := List.forall_mem_cons.mp hq
    obtain ⟨r, c, hi⟩ := exec_quiet (s := setScript (rows.map .op) s) hr hb hqi
    obtain ⟨t, hrun, hflags⟩ :=
      ih { setScript (rows.map .op) s with readout := r, chkValue := c } hr hb rfl hqrows
    exact ⟨t, (run_succ_of_step (M := core) ((step_op hs).trans hi) _).trans hrun, hflags⟩

/-- Settles O57: with an empty script a step is the COMPLETE row, which does nothing while BUSY = 0. -/
theorem stepWithEmptyScriptIsTheCores : Obligations.StepWithEmptyScriptIsTheCores := by
  intro s hr hs
  refine ⟨step_nil hs, fun hb => ?_⟩
  rw [step_nil hs, exec_complete hr, completeOp_of_idle hb]

/-! VERIFY and PARSE side by side (R123). -/

/-- Settles O41: VERIFY writes `ver` and PARSE writes `pkt`, and both read the frame alone, which neither writes. -/
theorem verifyAndParseAreIndependent : Obligations.VerifyAndParseAreIndependent := by
  intro s v p hr
  have hverifyFirst : execAll [.verify, .parse] s =
      .next { s with ver := verifyRegsOf (frameOf s), pkt := parseRegsOf (frameOf s) } :=
    execAll_cons_eq (exec_verify hr) (execAll_cons_eq (exec_parse hr) rfl)
  have hparseFirst : execAll [.parse, .verify] s =
      .next { s with ver := verifyRegsOf (frameOf s), pkt := parseRegsOf (frameOf s) } :=
    execAll_cons_eq (exec_parse hr) (execAll_cons_eq (exec_verify hr) rfl)
  exact ⟨hverifyFirst.trans hparseFirst.symm, ⟨_, _, exec_verify hr, rfl, exec_verify hr, rfl⟩,
    ⟨_, _, exec_parse hr, rfl, exec_parse hr, rfl⟩⟩

/-- One frame for each pair of VERIFY_OK and PARSE_ST: S2, P17, V7, V6, P6, P19, P9 and P11 of 95_test_vectors.md
section 4. -/
def frameWithResults : Bool → BitVec 3 → List Byte
  | true, 1 => [0xDD, 0x01, 0x00, 0x03, 0x41, 0x42, 0x43, 0xFF, 0x37, 0x77]
  | false, 1 => [0xDD, 0x01, 0x00, 0x03, 0x41, 0x42, 0x43, 0x00, 0x00, 0x77]
  | true, 2 => [0xDD, 0x03, 0x00, 0x00, 0x00, 0x77]
  | false, 2 => [0xDD, 0x03, 0x00, 0x00, 0x00]
  | true, 3 => [0xDE, 0x01, 0x00, 0x03, 0x41, 0x42, 0x43, 0xFF, 0x37, 0x77]
  | false, 3 => [0xDD, 0x01, 0x00, 0x03, 0x41, 0x42, 0x43, 0x00, 0x00, 0x76]
  | true, _ => [0xDD, 0x01, 0x00, 0x05, 0x41, 0x42, 0x43, 0xFF, 0x35, 0x77]
  | false, _ => [0xDD, 0x01, 0x00, 0xFF, 0xFE, 0x02, 0x77]

theorem frameWithResults_has_results :
    ∀ ok : Bool, ∀ code ∈ [psOk, psTooShort, psBadMarker, psTruncatedData],
      (frameWithResults ok code).length ≤ 511 ∧ verifyFrame (frameWithResults ok code) = ok
      ∧ (parseRegsOf (frameWithResults ok code)).parseSt = code := by decide

theorem verifyFrame_of_short {f : List Byte} (h : f.length < minVerifyLen) : verifyFrame f = false := if_pos h

theorem parseSt_of_short {f : List Byte} (h : f.length < minParseLen) : (parseRegsOf f).parseSt = psTooShort := by
  have hparse : parseFrame f = .error .tooShort := if_pos h
  rw [parseRegsOf, hparse]
  rfl

/-- Settles O42: a frame for each of the eight pairs, and the length checks that come first in both units. -/
theorem allResultCombinationsOccur : Obligations.AllResultCombinationsOccur := by
  refine ⟨fun ok code hcode => ⟨_, frameWithResults_has_results ok code hcode⟩, fun f => ⟨fun h => ?_, fun h => ?_⟩⟩
  · exact ⟨verifyFrame_of_short h, parseSt_of_short (lt_trans h (by decide))⟩
  · exact parseSt_of_short (h.trans_lt (by decide))

end Sys2Proof.Machine
end

section
/-! PROOFS. The host's writes and reads, what holds the results, and the step on an entry of the script (R127, R128; log
4, log 6, log 11). -/

namespace Sys2Proof.Machine

/-! Writes (R128 h1, h2). -/

/-- Settles O44: the rows are the two updates of FB and LEN, and reads of FB obey read after write. -/
theorem hostWritesStoreTheirOperand : Obligations.HostWritesStoreTheirOperand := by
  intro s hr
  refine ⟨fun a v ha => ?_, fun n hn => ?_⟩
  · exact ⟨storeByte a v s, by rw [exec_hostWriteFb hr, if_pos ha], rfl, fbRead_storeByte_same s a v,
      fun b hb => fbRead_storeByte_other s v hb⟩
  · rw [exec_hostWriteLen hr, if_pos hn]
    rfl

/-! Reads (R128 h4). -/

theorem exec_hostRead_of_ok {s : State} {p : Port} {v : Nat} (h : s.wasReset = true) (hp : portValue p s = .ok v) :
    exec (.hostRead p) s = .next { s with readout := some v } :=
  (afterReset_of_reset h _).trans (by rw [hp]; rfl)

theorem bit_eq_toNat (b : Bool) : bit b = b.toNat := by cases b <;> rfl

theorem portValue_fb {s : State} {a : Nat} (h : a < s.cfg.fbSize) : portValue (.fb a) s = .ok (fbRead s a).toNat :=
  if_pos h

theorem portValue_data {s : State} {j : Nat} (h : j < s.pkt.dlen.toNat) :
    portValue (.data j) s = .ok (fbRead s (4 + j)).toNat := if_pos h

/-- Settles O45: each port has its value, a flag being read as the number 0 or 1. -/
theorem readHandsOverTheValue : Obligations.ReadHandsOverTheValue := by
  intro s hr
  have hword {p : Port} {v : Nat} (hp : portValue p s = .ok v) := exec_hostRead_of_ok hr hp
  have hflag {p : Port} {b : Bool} (hp : portValue p s = .ok (bit b)) := hword (bit_eq_toNat b ▸ hp)
  exact ⟨hword rfl, hflag rfl, hflag rfl, hflag rfl, hword rfl, hword rfl, hword rfl, hflag rfl, hflag rfl, hword rfl,
    hword rfl, hword rfl, fun _ ha => hword (portValue_fb ha), fun _ hj => hword (portValue_data hj)⟩

/-! What holds the results (R127). -/

/-- A port that names an offset of FB or a register has a value. -/
theorem exists_portValue_of_quiet {s : State} {p : Port} (h : (Instr.hostRead p).quiet s.cfg = true) :
    ∃ v, portValue p s = .ok v := by
  cases p with
  | fb a => exact ⟨_, portValue_fb (of_decide_eq_true h)⟩
  | data j => cases h
  | _ => exact ⟨_, rfl⟩

/-- A quiet row other than START hands something to the host, whether an operation runs or not. -/
theorem exec_quiet_of_ne_hostStart {i : Instr} {s : State} (hr : s.wasReset = true) (hq : i.quiet s.cfg = true)
    (hi : i ≠ .hostStart) : ∃ r c, exec i s = .next { s with readout := r, chkValue := c } := by
  cases i with
  | hostStart => exact absurd rfl hi
  | chk body => exact ⟨s.readout, some (chkOf body), rfl⟩
  | hostRead p =>
    obtain ⟨v, hv⟩ := exists_portValue_of_quiet hq
    exact ⟨some v, s.chkValue, exec_hostRead_of_ok hr hv⟩
  | _ => cases hq

/-- Settles O46: these rows hand something over, write FB or LEN, or are a COMPLETE that is not enabled. -/
theorem resultsHeldUntilNextStart : Obligations.ResultsHeldUntilNextStart := by
  rintro i s hr hb hd (⟨hq, hi⟩ | hw | rfl)
  · obtain ⟨r, c, hexec⟩ := exec_quiet_of_ne_hostStart hr hq hi
    exact ⟨_, hexec, rfl, rfl, hd, hb⟩
  · obtain ⟨fb, len, hexec⟩ := exec_writes hw
    exact ⟨_, hexec s hr rfl rfl rfl, rfl, rfl, hd, hb⟩
  · exact ⟨s, by rw [exec_complete hr, completeOp_of_idle hb], rfl, rfl, hd, hb⟩

/-! The step on an entry of the script (log 4, log 6). -/

theorem rowOf_of_decode {f : List Byte} {i : Instr} (h : decode f = .ok i) : rowOf f = i := by rw [rowOf, h]

theorem decode_of_decodeTableWord {nbits w : Nat} {i : Instr} (h : decodeTableWord nbits w = some i) :
    decode (tableBytes (nbits / 8) w) = .ok i := by
  unfold decodeTableWord at h
  cases hd : decode (tableBytes (nbits / 8) w) <;> rw [hd] at h <;> cases h
  rfl

/-- A step on the bytes of a frame that fits writes them and executes the row they decode to. -/
theorem step_code_of_decode {s : State} {f : List Byte} {r : List Slot} {i : Instr} (hr : s.wasReset = true)
    (hs : s.script = .code f :: r) (hf : f.length ≤ s.cfg.fbSize) (hd : decode f = .ok i) :
    step s = exec i (presentFrame f (setScript r s)) := by
  rw [step_code hs, afterReset_of_reset hr, withFrame_of_fits (s := setScript r s) hf, rowOf_of_decode hd]

/-- Settles O55: the step on a row is its execution, and the step on a frame is the execution of its row with the frame
in the buffer, a table word being the frame of its bytes. -/
theorem stepExecutesTheDecodedRow : Obligations.StepExecutesTheDecodedRow := by
  refine ⟨fun s i r hs => step_op hs, fun s f r i hr hs hf hd => ?_, fun s nbits w i hr hf hd => ?_⟩
  · exact ⟨_, step_code_of_decode hr hs hf hd, frameOf_presentFrame _ _,
      fun b hb => fbRead_presentFrame_beyond f (setScript r s) hb, presentFrame_frame f (setScript r s)⟩
  · rw [← tableBytes_length (nbits / 8) w] at hf
    refine ⟨_, step_code_of_decode (s := s.withFetchWord nbits w) hr rfl hf (decode_of_decodeTableWord hd), ?_⟩
    rw [presentFrame_frame]
    exact ⟨tableBytes_length _ w, rfl⟩

end Sys2Proof.Machine
end

section
/-! PROOFS. Exceptions: no row of the core stops or writes what the host owns, and a rejected frame is recorded as a value
(R42, R128, R142, R149; log 6). -/

namespace Sys2Proof.Machine

/-! What the core leaves of the frame (R42). -/

theorem OnlyResults.fb_len {s t : State} (h : OnlyResults s t) : t.fb = s.fb ∧ t.len = s.len := by
  rw [h]
  exact ⟨rfl, rfl⟩

theorem giveStart_fb_len (s : State) : (giveStart s).fb = s.fb ∧ (giveStart s).len = s.len := by
  cases hb : s.busy with
  | false => rw [giveStart_of_idle hb]; exact ⟨rfl, rfl⟩
  | true => rw [giveStart_of_busy hb]; exact ⟨rfl, rfl⟩

theorem completeOp_fb_len (s : State) : (completeOp s).fb = s.fb ∧ (completeOp s).len = s.len := by
  cases hb : s.busy with
  | false => rw [completeOp_of_idle hb]; exact ⟨rfl, rfl⟩
  | true =>
    cases hh : s.hazard with
    | false => rw [completeOp_of_busy hb hh]; exact ⟨rfl, rfl⟩
    | true => rw [completeOp_of_hazard hb hh]; exact ⟨rfl, rfl⟩

/-- After the reset a row that is no move answers a next state, with the frame as it was. -/
theorem exec_of_not_isMove_keeps_frame {i : Instr} {s : State} (hr : s.wasReset = true) (hi : i.isMove = false) :
    ∃ t, exec i s = .next t ∧ t.fb = s.fb ∧ t.len = s.len := by
  obtain ⟨t, hexec, hres⟩ := exec_of_not_isMove hi s
  exact ⟨t, hexec.trans (afterReset_of_reset hr _), hres.fb_len⟩

/-- Settles O43: the rows inside VERIFY and PARSE write result and working registers only; RUN, COMPLETE and START write
flags besides, and reset clears LEN and leaves FB. -/
theorem coreNeverStopsNorWritesTheFrame : Obligations.CoreNeverStopsNorWritesTheFrame := by
  intro i s hr hi
  cases hmove : i.isMove
  case false =>
    obtain ⟨t, hexec, hfb, hlen⟩ := exec_of_not_isMove_keeps_frame hr hmove
    exact ⟨t, hexec, hfb, fun _ => hlen⟩
  case true =>
    cases i <;> cases hmove
    case run =>
      obtain ⟨hfb, hlen⟩ := runOp_fb_len s
      exact ⟨_, exec_run hr, hfb, fun _ => hlen⟩
    case complete =>
      obtain ⟨hfb, hlen⟩ := completeOp_fb_len s
      exact ⟨_, exec_complete hr, hfb, fun _ => hlen⟩
    case hostStart =>
      obtain ⟨hfb, hlen⟩ := giveStart_fb_len s
      exact ⟨_, exec_hostStart hr, hfb, fun _ => hlen⟩
    case hostReset => exact ⟨resetRegs s, rfl, rfl, fun hne => absurd rfl hne⟩
    case reqHwinfo | hostWriteFb | hostWriteLen | hostRead | chk | frame => simp at hi

/-! A rejected frame (R142; log 6). -/

/-- The decoder rejects a frame by PARSE's own error. -/
theorem parseFrame_of_decode_error {f : List Byte} {e : FramingError} (h : decode f = .error e) :
    parseFrame f = .error e := by
  unfold decode at h
  split at h
  · cases h
  · cases hp : parseFrame f <;> rw [hp] at h <;> cases h
    rfl

theorem rowOf_of_decode_error {f : List Byte} {e : FramingError} (h : decode f = .error e) : rowOf f = .parse := by
  rw [rowOf, h]

theorem parseRegsOf_of_decode_error {f : List Byte} {e : FramingError} (h : decode f = .error e) :
    parseRegsOf f = .ofError e := by rw [parseRegsOf, parseFrame_of_decode_error h]

/-- A step on bytes that fit and are no frame writes them and the PARSE registers of their error. -/
theorem step_code_of_decode_error {s : State} {f : List Byte} {r : List Slot} {e : FramingError}
    (hr : s.wasReset = true) (hs : s.script = .code f :: r) (hf : f.length ≤ s.cfg.fbSize) (hd : decode f = .error e) :
    step s = .next { presentFrame f (setScript r s) with pkt := .ofError e } := by
  have hreset : (presentFrame f (setScript r s)).wasReset = true := by rw [presentFrame_wasReset, setScript_wasReset, hr]
  rw [step_code hs, afterReset_of_reset hr, withFrame_of_fits (s := setScript r s) hf, rowOf_of_decode_error hd,
    exec_parse hreset, frameOf_presentFrame, parseRegsOf_of_decode_error hd]

/-- Settles O56: the step writes the bytes and executes PARSE, which records their error. -/
theorem stepRecordsRejectedFrame : Obligations.StepRecordsRejectedFrame := by
  intro s f r e hr hs hf hd
  refine ⟨_, step_code_of_decode_error hr hs hf hd, ?_, ?_, ?_, ?_⟩
  · exact (frameOf_congr rfl rfl).trans (frameOf_presentFrame f _)
  · rw [presentFrame_frame, setScript_script]
  · rw [presentFrame_frame, setScript_ver]
  · cases e <;> rfl

end Sys2Proof.Machine
end

section
/-! PROOFS. Reset, the time before the first reset, and writes during an operation (R160 to R163; log 3, log 15). -/

namespace Sys2Proof.Machine

/-! Writes while an operation may run (R163). -/

/-- Writing rows write the same into FB and LEN whatever the rest of the state, and one of them is enough to mark the
hazard while BUSY. -/
theorem execAll_writes {rows : List Instr} {s : State} (hw : ∀ i ∈ rows, i.writes s.cfg = true) :
    ∃ fb len, ∀ t : State, t.wasReset = true → t.cfg = s.cfg → t.fb = s.fb → t.len = s.len →
      execAll rows t = .next { t with fb := fb, len := len, hazard := t.hazard || (t.busy && !rows.isEmpty) } := by
  induction rows generalizing s with
  | nil =>
    refine ⟨s.fb, s.len, fun t _ _ hfb hlen => ?_⟩
    simp [← hfb, ← hlen]
  | cons i rows ih =>
    obtain ⟨hwi, hwrows⟩ := List.forall_mem_cons.mp hw
    obtain ⟨fb, len, hi⟩ := exec_writes hwi
    obtain ⟨fb', len', hrows⟩ := ih (s := { s with fb := fb, len := len }) hwrows
    refine ⟨fb', len', fun t hr hcfg hfb hlen => ?_⟩
    have hmark : (t.hazard || t.busy || (t.busy && !rows.isEmpty)) = (t.hazard || t.busy && !(i :: rows).isEmpty) := by
      cases t.busy <;> simp
    rw [execAll_cons (hi t hr hcfg hfb hlen),
      hrows { t with fb := fb, len := len, hazard := t.hazard || t.busy } hr hcfg rfl rfl, hmark]

/-- Settles O12: the writes mark the hazard of the operation that the START opened and write what they write without it;
the completion then draws free results, and RUN begins a new operation on the frame as it stands. -/
theorem writesDuringOperationFreeItsResults : Obligations.WritesDuringOperationFreeItsResults := by
  intro s rows hr hb hne hw
  obtain ⟨fb, len, hrows⟩ := execAll_writes hw
  have hmark : (false || (true && !rows.isEmpty)) = true := by simpa using hne
  have hop := hrows (acceptStart s) hr rfl rfl rfl
  rw [acceptStart_hazard, acceptStart_busy, hmark] at hop
  refine ⟨finish (drawFree { acceptStart s with fb := fb, len := len, hazard := true }), _, _,
    execAll_cons_eq (exec_hostStart_of_idle hr hb) <| (execAll_append hop _).trans <|
      execAll_cons_eq (exec_complete hr) (congrArg _ (completeOp_of_hazard rfl rfl)),
    hrows s hr rfl rfl rfl, rfl, rfl, rfl, rfl, rfl, rfl, exec_run hr, ?_⟩
  rw [runOp_idle rfl]
  exact ⟨rfl, rfl⟩

/-- Settles O7: the completion step with the hazard mark set draws the nine results and then writes the flags. -/
theorem completionAfterHazardIsFree : Obligations.CompletionAfterHazardIsFree := by
  intro s hr hb hh
  rw [exec_complete hr, completeOp_of_hazard hb hh]
  rfl

/-! Reset (R160 to R162). -/

/-- Settles O2: reset leaves an idle core with LEN 0, which takes the START and completes on a frame too short for
VERIFY and for PARSE. -/
theorem resetFromAnyState : Obligations.ResetFromAnyState := by
  intro s
  have hempty : (frameOf (resetRegs s)).length = 0 := frameOf_length _
  have hverify : verifyFrame (frameOf (resetRegs s)) = false := verifyFrame_of_short (by rw [hempty]; decide)
  have hparse : (parseRegsOf (frameOf (resetRegs s))).parseSt = 2 := parseSt_of_short (by rw [hempty]; decide)
  have hcomplete := execAll_start_complete (s := resetRegs s) rfl rfl
  rw [runOp_idle rfl] at hcomplete
  exact ⟨.zero, resetRegs s, rfl, rfl, rfl, ⟨_, exec_hostStart_of_idle rfl rfl, rfl⟩, _, hcomplete, rfl, rfl, hverify,
    hparse⟩

/-- Every row but HOST.RESET and CHK has its meaning behind the guard of R162. -/
theorem exec_eq_afterReset {i : Instr} (s : State) (hreset : i ≠ .hostReset) (hchk : ∀ body, i ≠ .chk body) :
    ∃ o, exec i s = afterReset s o := by
  cases i with
  | hostReset => exact absurd rfl hreset
  | chk body => exact absurd rfl (hchk body)
  | _ => exact ⟨_, rfl⟩

/-- Settles O3: the guard refuses while the first reset is owed. -/
theorem noMoveBeforeFirstReset : Obligations.NoMoveBeforeFirstReset := by
  intro i s hr hreset hchk
  obtain ⟨o, hexec⟩ := exec_eq_afterReset s hreset hchk
  rw [hexec, afterReset_of_not_reset hr]

end Sys2Proof.Machine
end
